-- ==== Sys2Proof/Word.lean ====
section
/-! DEFINITION. The block's word types (spec 00_scope.md R9, R10). Its arithmetic stands in Machine/Ops.lean. -/

namespace Sys2Proof

/-- A datapath word: 32 bits, two's complement, read as Q3.28 (R9); bit 0 is the least significant (R10). -/
abbrev Word := BitVec 32

/-- The control word `ctl = {rst, start, st[1:0], cnt[3:0]}` (30_encoding.md R70). -/
abbrev ControlWord := BitVec 8

/-- The 4-bit index of an iteration, of a ROM word and of a shift (30_encoding.md R72). -/
abbrev Index := BitVec 4

end Sys2Proof
end

