-- ==== Sys2Proof/Stimulus.lean ====
section
/-! DEFINITION. The input vector of one clock edge, and the lines of the stimulus notation (30_encoding.md R77, R78).
Their encoding stands in Decode.lean, their expansion and their text in Machine/Stimulus.lean. -/

namespace Sys2Proof

/-- The input pins as one edge samples them (10_state.md R20, R21). -/
structure InputVector where
  /-- Synchronous reset, active high. -/
  rst     : Bool
  /-- Request to begin a transaction. -/
  start   : Bool
  /-- The input angle, Q3.28. -/
  angleIn : Word
deriving DecidableEq, Repr

/-- The two ways R77 writes a word `<w>`. -/
inductive Literal where
  /-- `0x` followed by 8 hex digits. -/
  | hex (n : Nat)
  /-- A signed decimal integer, taken as `wrap32` of itself. -/
  | dec (v : Int)
deriving DecidableEq, Repr

/-- A line of a stimulus program (R77), the pseudo-instructions of R78 among them. -/
inductive Line where
  | reset
  | start (w : Literal)
  | nop
  | poke (w : Literal)
  | wait (n : Nat)
  | run (w : Literal)
deriving DecidableEq, Repr

end Sys2Proof
end

