-- ==== Sys2Proof/Syntax.lean ====
section
/-! DEFINITION. The instructions: the six micro-operations of spec/opcode_table.json (30_encoding.md R71). -/

namespace Sys2Proof

/-- One micro-operation, one constructor per row of the table. Only ROTATE has an instruction field (R72);
the bits a row ignores (R74) are no part of the instruction. -/
inductive Instr where
  /-- RESET, `1-------` (70_reset_and_hazards.md R220). -/
  | reset
  /-- IDLE_HOLD, `0000----` (40_sequencer.md R103). -/
  | idleHold
  /-- LOAD, `0100----` (41_range_reducer.md R127). -/
  | load
  /-- ROTATE i, `0-01iiii` (43_rotation_engine.md R162). -/
  | rotate (i : Index)
  /-- COMPOSE, `0-10----` (44_output_composer.md R180). -/
  | compose
  /-- ILLEGAL_RECOVER, `0-11----` (40_sequencer.md R102). -/
  | illegalRecover
deriving DecidableEq, Repr

end Sys2Proof
end

