-- ==== Sys2Proof/WellFormed.lean ====
section
/-! DEFINITION. Which terms the spec's syntax admits. -/

namespace Sys2Proof

/-- Every instruction is well formed: the one field there is, ROTATE's `i`, takes every 4-bit value, and there is no
undecodable control word (30_encoding.md R72, R73). The bound of the field is in its type. -/
def Instr.wellFormed : Instr → Bool
  | .reset => true
  | .idleHold => true
  | .load => true
  | .rotate _ => true
  | .compose => true
  | .illegalRecover => true

/-- A word literal of the stimulus notation: 8 hex digits, or a decimal integer in `[-2^31, 2^31 - 1]` (R77). -/
def Literal.wellFormed : Literal → Bool
  | .hex n => decide (n < 2 ^ 32)
  | .dec v => decide (-2 ^ 31 ≤ v) && decide (v ≤ 2 ^ 31 - 1)

/-- A line is well formed when its literal is; `WAIT n` takes every `n >= 0` (R78). -/
def Line.wellFormed : Line → Bool
  | .reset => true
  | .start w => w.wellFormed
  | .nop => true
  | .poke w => w.wellFormed
  | .wait _ => true
  | .run w => w.wellFormed

end Sys2Proof
end

