-- ==== Sys2Proof/Decode.lean ====
section
/-! DEFINITION. The encodings: of the sequencer state (10_state.md R28), of the control word and its decode to a
micro-operation (30_encoding.md R70 to R73), of a micro-operation as a control word, and of an input vector (R77). -/

namespace Sys2Proof

/-- The sequencer state `st` (10_state.md R28). Software never sees its bits; only `ctl` holds them (log 5). -/
inductive SeqState where
  | idle
  | rotate
  | compose
  | illegal
deriving DecidableEq, Repr

/-- The 2-bit encoding of `st` (R28). -/
def SeqState.toBits : SeqState → BitVec 2
  | .idle => 0b00#2
  | .rotate => 0b01#2
  | .compose => 0b10#2
  | .illegal => 0b11#2

/-- The state a 2-bit field names; every value names one (R28). -/
def SeqState.ofBits (b : BitVec 2) : SeqState :=
  if b = 0b00#2 then .idle
  else if b = 0b01#2 then .rotate
  else if b = 0b10#2 then .compose
  else .illegal

/-! ### The control word -/

/-- `ctl = {rst, start, st[1:0], cnt[3:0]}` (R70). -/
def makeCtl (rst start : Bool) (st : SeqState) (cnt : Index) : ControlWord :=
  ((BitVec.ofBool rst ++ BitVec.ofBool start) ++ st.toBits) ++ cnt

/-- `ctl[7]`. -/
def ctlRst (c : ControlWord) : Bool := c.getLsbD 7

/-- `ctl[6]`. -/
def ctlStart (c : ControlWord) : Bool := c.getLsbD 6

/-- `ctl[5:4]`. -/
def ctlSt (c : ControlWord) : SeqState := SeqState.ofBits (c.extractLsb' 4 2)

/-- `ctl[3:0]`, the field `i` of R72. -/
def ctlCnt (c : ControlWord) : Index := c.extractLsb' 0 4

/-! ### Decoding -/

/-- The decode of R71: RESET overrides; then `st` selects, and in IDLE `start`. Total: no control word is
undecodable (R73). -/
def decode (c : ControlWord) : Instr :=
  if ctlRst c then .reset
  else match ctlSt c with
    | .idle => if ctlStart c then .load else .idleHold
    | .rotate => .rotate (ctlCnt c)
    | .compose => .compose
    | .illegal => .illegalRecover

/-- Why a byte string is no control word. -/
inductive DecodeError where
  /-- No byte at all: a control word is one byte (R70). -/
  | empty
  /-- More than one byte: there is one format, 8 bits long, with no prefix and no longer form (R70). -/
  | trailing (extra : Nat)
deriving DecidableEq, Repr

/-- Decoding of any byte string: one byte is a control word, anything else is rejected by name (R70). -/
def decodeBytes : List (BitVec 8) → Except DecodeError Instr
  | [] => .error .empty
  | [c] => .ok (decode c)
  | _ :: _ :: rest => .error (.trailing (rest.length + 1))

/-- The bytes of an `nbits`-bit number, the least significant first. -/
def tableBytes (nbits w : Nat) : List (BitVec 8) :=
  (List.range (nbits / 8)).map fun k => BitVec.ofNat 8 (w / 256 ^ k)

/-- What the decoder reads from a row of spec/opcode_table.json numbered as the table numbers it. -/
def decodeTableWord (nbits w : Nat) : Option Instr :=
  match decodeBytes (tableBytes nbits w) with
  | .ok i => some i
  | .error _ => none

/-! ### The opcode table -/

/-- A row of R71: it matches when `(ctl & mask) = match`. -/
structure Row where
  mnemonic : String
  matched  : ControlWord
  mask     : ControlWord
deriving DecidableEq, Repr

/-- Whether a control word matches a row (R71). -/
def Row.admits (r : Row) (c : ControlWord) : Bool := (c &&& r.mask) == r.matched

/-- The rows of R71, in the order given. -/
def opcodeTable : List Row :=
  [ ⟨"RESET", 0x80#8, 0x80#8⟩,
    ⟨"IDLE_HOLD", 0x00#8, 0xF0#8⟩,
    ⟨"LOAD", 0x40#8, 0xF0#8⟩,
    ⟨"ROTATE", 0x10#8, 0xB0#8⟩,
    ⟨"COMPOSE", 0x20#8, 0xB0#8⟩,
    ⟨"ILLEGAL_RECOVER", 0x30#8, 0xB0#8⟩ ]

/-- The name of a micro-operation in R71. -/
def Instr.mnemonic : Instr → String
  | .reset => "RESET"
  | .idleHold => "IDLE_HOLD"
  | .load => "LOAD"
  | .rotate _ => "ROTATE"
  | .compose => "COMPOSE"
  | .illegalRecover => "ILLEGAL_RECOVER"

/-- The first row that matches, by its name (R71: "The first matching row wins"). -/
def tableMnemonic (c : ControlWord) : Option String :=
  (opcodeTable.find? fun r => r.admits c).map fun r => r.mnemonic

/-! ### Encoding -/

/-- A control word of the micro-operation: its row's pattern in R71 with every ignored bit 0
(DESIGN CHOICE, log 10). -/
def encode : Instr → ControlWord
  | .reset => 0b10000000#8
  | .idleHold => 0b00000000#8
  | .load => 0b01000000#8
  | .rotate i => 0b0001#4 ++ i
  | .compose => 0b00100000#8
  | .illegalRecover => 0b00110000#8

/-- An input vector written `{rst, start, angle_in}`, 34 bits (R77). -/
def InputVector.toBits (v : InputVector) : BitVec 34 :=
  (BitVec.ofBool v.rst ++ BitVec.ofBool v.start) ++ v.angleIn

/-- The input vector of 34 bits (R77). -/
def InputVector.ofBits (b : BitVec 34) : InputVector where
  rst := b.getLsbD 33
  start := b.getLsbD 32
  angleIn := b.extractLsb' 0 32

/-! ### Each row's decoding, on a word written out from its pattern in R71 -/

theorem decode_word_reset : decode 0b11011001#8 = .reset := by decide
theorem decode_word_idleHold : decode 0b00001001#8 = .idleHold := by decide
theorem decode_word_load : decode 0b01000000#8 = .load := by decide
theorem decode_word_rotate : decode 0b01011110#8 = .rotate 14#4 := by decide
theorem decode_word_compose : decode 0b01100000#8 = .compose := by decide
theorem decode_word_illegalRecover : decode 0b01110111#8 = .illegalRecover := by decide

end Sys2Proof
end

