-- ==== Sys2Proof/Config.lean ====
section
/-! DEFINITION. What is fixed when the block is built, and the free value of the environment.
The default words of the parameters stand in Machine/Constants.lean. -/

namespace Sys2Proof

/-- The parameters of 00_scope.md R7: the ROM (20_memory.md R50) and the five hardwired words (10_state.md R37).
They are fixed when the block is built, and nothing writes them (20_memory.md R54). `N = 16`, `CW = 4` and `W = 32`
are not parameters here: only those values are specified (R8; DESIGN CHOICE, log 12). -/
structure Params where
  /-- `ATAN_ROM[0..15]` (20_memory.md R51). -/
  atanRom      : Vector Word 16
  /-- `K_Q` (42_gain_correction.md R142). -/
  kQ           : Word
  /-- `HALF_PI_Q`. -/
  halfPiQ      : Word
  /-- `PI_Q`. -/
  piQ          : Word
  /-- `THREE_HALF_PI_Q`. -/
  threeHalfPiQ : Word
  /-- `TWO_PI_Q`. -/
  twoPiQ       : Word
deriving DecidableEq, Repr

/-- FREE VALUE. The input vector `{rst, start, angle_in}` (34 bits, 30_encoding.md R77) at the n-th edge for which
State lists no driven vector. Every bit is a plain 0 or 1 (10_state.md R21, D27); the spec says nothing more, so
nothing can be proved of it (log 2). -/
opaque Config.freeInput : Nat → BitVec 34

end Sys2Proof
end

