-- ==== Sys2Proof/Machine/Constants.lean ====
section
/-! DEFINITION. The default words of the parameters (00_scope.md R7, 20_memory.md R51). They are the spec's own
choice of rounding (D8), and a model parameter. -/

namespace Sys2Proof.Machine

/-- The default ROM, word `i` = `round_to_nearest(arctan(2^-i) · 2^28)` (20_memory.md R51). -/
def defaultAtanRom : Vector Word 16 :=
  #v[0x0C90FDAA#32, 0x076B19C1#32, 0x03EB6EBF#32, 0x01FD5BAA#32,
     0x00FFAADE#32, 0x007FF557#32, 0x003FFEAB#32, 0x001FFFD5#32,
     0x000FFFFB#32, 0x0007FFFF#32, 0x00040000#32, 0x00020000#32,
     0x00010000#32, 0x00008000#32, 0x00004000#32, 0x00002000#32]

/-- The parameters at their defaults (00_scope.md R7). -/
def defaultParams : Params where
  atanRom := defaultAtanRom
  kQ := 0x09B74EDB#32
  halfPiQ := 0x1921FB54#32
  piQ := 0x3243F6A9#32
  threeHalfPiQ := 0x4B65F1FD#32
  twoPiQ := 0x6487ED51#32

end Sys2Proof.Machine
end

