-- ==== Sys2Proof/Machine/State.lean ====
section
/-! DEFINITION. The state of the block (10_state.md R22 to R33, R39), the reasons a step can stop, and the state
after reset. -/

namespace Sys2Proof.Machine

/-- The working triple of the rotation engine (10_state.md R22 to R24). -/
structure Triple where
  x : Word
  y : Word
  z : Word
deriving DecidableEq, Repr

/-- The two results of the range reducer (41_range_reducer.md R120). -/
structure Reduced where
  /-- The reduced angle `r`. -/
  angle : Word
  /-- 1 stands for the source's cosine-sign flag −1. -/
  neg   : Bool
deriving DecidableEq, Repr

/-- A result as the block publishes it (40_sequencer.md R107). -/
structure Result where
  cos : Word
  sin : Word
  err : Bool
deriving DecidableEq, Repr

/-- The output ports (10_state.md R20). -/
structure Outputs where
  busy   : Bool
  done   : Bool
  cosOut : Word
  sinOut : Word
  domErr : Bool
deriving DecidableEq, Repr

/-- The registers of 10_state.md R22 to R33; the parameters the block was built with; and the environment's drive
sequence. -/
structure State where
  /-- `x` (R22). -/
  x        : Word
  /-- `y` (R23). -/
  y        : Word
  /-- `z`, the remaining angle (R24). -/
  z        : Word
  /-- `cneg`, the cosine-sign flag (R26). -/
  cneg     : Bool
  /-- `derr`, the domain flag of the transaction in flight (R27). -/
  derr     : Bool
  /-- `st`, the sequencer state (R28). -/
  st       : SeqState
  /-- `cnt`, the iteration index (R29). -/
  cnt      : Index
  /-- `cos_out` (R32). -/
  cosOut   : Word
  /-- `sin_out` (R32). -/
  sinOut   : Word
  /-- `dom_err` (R33). -/
  domErr   : Bool
  /-- `done` (R31). -/
  done     : Bool
  /-- The ROM and the constants, fixed when the block is built (20_memory.md R54, 00_scope.md R7; log 3). -/
  params   : Params
  /-- MODEL'S OWN. The input vectors driven at the coming edges, the next edge's first (30_encoding.md R77; log 1). -/
  stimulus : List InputVector
  /-- MODEL'S OWN. How many edges passed with no driven vector: the number of the next free one (log 2). -/
  undriven : Nat
deriving DecidableEq, Repr

/-- The machine faults for no reason: "The block raises no exception. It has no trap, no cause code, no fault state
and no halt" (60_exceptions.md R200). There is no constructor, so no one raises it (safe). -/
inductive Fault
deriving DecidableEq, Repr

/-- Why an instruction would be refused. -/
inductive Refusal where
  /-- Raised only by an arm of `exec` whose instruction has no meaning yet; no arm is one now (safe). -/
  | notModelled (mnemonic : String)
deriving DecidableEq, Repr

/-- The state after RESET (10_state.md R39), of a block with the default parameters and nothing driven. -/
def State.reset : State where
  x := 0x00000000#32
  y := 0x00000000#32
  z := 0x00000000#32
  cneg := false
  derr := false
  st := .idle
  cnt := 0#4
  cosOut := 0x00000000#32
  sinOut := 0x00000000#32
  domErr := false
  done := false
  params := defaultParams
  stimulus := []
  undriven := 0

end Sys2Proof.Machine
end

