-- ==== Sys2Proof/Machine/Ops.lean ====
section
/-! DEFINITION. The shared operations: the arithmetic primitives of 00_scope.md R11, the ROM read, the input pins and
the control word of a cycle, and the named updates of the registers. The block takes no exception (60_exceptions.md
R200, R205, R206), so there is no operation that takes one or returns from one. -/

namespace Sys2Proof.Machine

/-! ### Arithmetic (00_scope.md R10, R11) -/

/-- `sint(v)`: the signed reading. -/
abbrev sint (v : Word) : Int := v.toInt

/-- `wrap32(n)`: the word `w` with `sint(w) ≡ n (mod 2^32)`. -/
def wrap32 (n : Int) : Word := BitVec.ofInt 32 n

/-- `asr(v, s)`: the arithmetic right shift, rounding toward minus infinity. -/
def asr (v : Word) (s : Nat) : Word := v.sshiftRight s

/-! ### The ROM (20_memory.md R52) -/

/-- `MemRead(ROM, i, 32)`. Every 4-bit index is valid; the read has no effect. -/
def memRead (p : Params) (i : Index) : Word := p.atanRom[i.toNat]'i.isLt

/-! ### The input pins and the control word -/

/-- The input vector at the edge `k` edges ahead (0 is the coming edge): the driven one if State lists one, else a
free one (log 1, log 2). -/
def State.inputAt (s : State) (k : Nat) : InputVector :=
  match s.stimulus[k]? with
  | some v => v
  | none => InputVector.ofBits (Config.freeInput (s.undriven + (k - s.stimulus.length)))

/-- The input pins in the cycle that the coming edge ends (10_state.md R21). -/
def State.pins (s : State) : InputVector := s.inputAt 0

/-- The control word of the cycle (30_encoding.md R70). -/
def State.ctl (s : State) : ControlWord := makeCtl s.pins.rst s.pins.start s.st s.cnt

/-- The edge has passed: its input vector is gone (10_state.md R21: the inputs are not stored). -/
def State.afterEdge (s : State) : State :=
  match s.stimulus with
  | _ :: vs => { s with stimulus := vs }
  | [] => { s with undriven := s.undriven + 1 }

/-! ### The named updates of the registers -/

/-- The working triple `(x, y, z)`. -/
def State.vector (s : State) : Triple := ⟨s.x, s.y, s.z⟩

/-- Write `x`, `y` and `z`. -/
def State.setVector (s : State) (v : Triple) : State := { s with x := v.x, y := v.y, z := v.z }

/-- Write the sequencer position `(st, cnt)` (10_state.md R35). -/
def State.setSeq (s : State) (st : SeqState) (cnt : Index) : State := { s with st := st, cnt := cnt }

/-- Write `cneg` and `derr`. -/
def State.setSigns (s : State) (cneg derr : Bool) : State := { s with cneg := cneg, derr := derr }

/-- Write the three result registers (10_state.md R32, R33). -/
def State.publish (s : State) (r : Result) : State :=
  { s with cosOut := r.cos, sinOut := r.sin, domErr := r.err }

/-- Write `done`, as every edge does (10_state.md R31). -/
def State.setDone (s : State) (b : Bool) : State := { s with done := b }

/-- The published result. -/
def State.result (s : State) : Result := ⟨s.cosOut, s.sinOut, s.domErr⟩

end Sys2Proof.Machine
end

