-- ==== Sys2Proof/Machine/Composer.lean ====
section
/-! DEFINITION. The output composer and COMPOSE (44_output_composer.md). -/

namespace Sys2Proof.Machine

/-- The composed cosine: negated when the reducer said so; no rounding, saturation or rescaling (R180, R182). -/
def composeCos (cneg : Bool) (x : Word) : Word := if cneg then wrap32 (0 - sint x) else x

/-- COMPOSE (R180). `x`, `y`, `z`, `cneg` and `derr` are unchanged. -/
def execCompose (s : State) : Host.Outcome State Fault Refusal :=
  .next (((s.publish { cos := composeCos s.cneg s.x, sin := s.y, err := s.derr }).setDone true).setSeq .idle 0#4)

end Sys2Proof.Machine
end

