-- ==== Sys2Proof/Machine/Flags.lean ====
section
/-! DEFINITION. The flag computations (10_state.md R36), and the output ports, which are flags and registers. There are
no condition codes, and no overflow is recorded (R36, D10). -/

namespace Sys2Proof.Machine

/-- The direction of a ROTATE step is +1: `z[31] = 0` (43_rotation_engine.md R161). Not stored. -/
def directionPlus (z : Word) : Bool := !z.msb

/-- `DOMAIN_ERR(a)` (41_range_reducer.md R126). -/
def domainErr (p : Params) (a : Word) : Bool :=
  decide (sint a < -sint p.twoPiQ) || decide (sint a > sint p.twoPiQ)

/-- `busy = (st != 00)`, combinational (10_state.md R30). -/
def State.busy (s : State) : Bool := s.st != .idle

/-- The output ports; no input reaches them within a cycle (40_sequencer.md R100). -/
def State.outputs (s : State) : Outputs where
  busy := s.busy
  done := s.done
  cosOut := s.cosOut
  sinOut := s.sinOut
  domErr := s.domErr

end Sys2Proof.Machine
end

