-- ==== Sys2Proof/Machine/Operands.lean ====
section
/-! DEFINITION. The operand forms (30_encoding.md R72): LOAD's input word, and ROTATE's shifted and tabulated words.
The other micro-operations take registers and constants only. -/

namespace Sys2Proof.Machine

/-- LOAD's operand `angle_in`: a full word, unextended (R72). -/
def State.angleOperand (s : State) : Word := s.pins.angleIn

/-- `i` as the shift amount, unextended: 0 to 15 (R72, 43_rotation_engine.md R164). -/
def shiftAmount (i : Index) : Nat := i.toNat

/-- `xs = asr(x, i)`: of the `x` at the start of the cycle (43_rotation_engine.md R162, R163). -/
def shiftedX (v : Triple) (i : Index) : Word := asr v.x (shiftAmount i)

/-- `ys = asr(y, i)`: of the `y` at the start of the cycle (R162, R163). -/
def shiftedY (v : Triple) (i : Index) : Word := asr v.y (shiftAmount i)

end Sys2Proof.Machine
end

