-- ==== Sys2Proof/Machine/Reducer.lean ====
section
/-! DEFINITION. The angle range reducer and LOAD (41_range_reducer.md), with the gain correction, which is a constant
load inside LOAD (42_gain_correction.md R141). -/

namespace Sys2Proof.Machine

/-- Step 1 of `REDUCE`: an independent test (R122, C1). -/
def reduceStep1 (p : Params) (v : Int) : Int :=
  if v < -sint p.halfPiQ then sint (wrap32 (v + sint p.twoPiQ)) else v

/-- Steps 2 and 3 of `REDUCE`: one if and else-if chain on the angle step 1 left (R122, C1). -/
def reduceSteps23 (p : Params) (v : Int) : Int × Bool :=
  if v > sint p.threeHalfPiQ then (sint (wrap32 (v - sint p.twoPiQ)), false)
  else if v > sint p.halfPiQ then (sint (wrap32 (sint p.piQ - v)), true)
  else (v, false)

/-- `REDUCE(a)` (R124). -/
def reduce (p : Params) (a : Word) : Reduced :=
  let step := reduceSteps23 p (reduceStep1 p (sint a))
  { angle := wrap32 step.1, neg := step.2 }

/-- The start of the rotation from a reduced angle: the gain-corrected vector `K · (1, 0) = (K_Q, 0)` and the angle
(42_gain_correction.md R140, R141). -/
def startVector (p : Params) (r : Word) : Triple := { x := p.kQ, y := 0x00000000#32, z := r }

/-- LOAD (R127). The result registers keep the previous result. -/
def execLoad (s : State) : Host.Outcome State Fault Refusal :=
  let a := s.angleOperand
  let red := reduce s.params a
  .next ((((s.setVector (startVector s.params red.angle)).setSigns red.neg (domainErr s.params a)).setSeq
    .rotate 0#4).setDone false)

end Sys2Proof.Machine
end

