-- ==== Sys2Proof/Machine/Reset.lean ====
section
/-! DEFINITION. RESET (70_reset_and_hazards.md R220). -/

namespace Sys2Proof.Machine

/-- Every register at its value of 10_state.md R39. The ROM and the constants are not affected (R220). -/
def State.clearRegisters (s : State) : State :=
  { s with
    st := .idle, cnt := 0#4,
    x := 0#32, y := 0#32, z := 0#32, cneg := false, derr := false,
    cosOut := 0#32, sinOut := 0#32, domErr := false, done := false }

/-- RESET (R220). -/
def execReset (s : State) : Host.Outcome State Fault Refusal := .next s.clearRegisters

end Sys2Proof.Machine
end

