-- ==== Sys2Proof/Machine/Rotation.lean ====
section
/-! DEFINITION. The rotation engine: one iteration, its branch-free variant, and ROTATE (43_rotation_engine.md). -/

namespace Sys2Proof.Machine

/-- `ITER_i`: the datapath of ROTATE (40_sequencer.md R106, 43_rotation_engine.md R162). All reads are of the old
values, so the new `y` uses the old `x` (R163, R228). -/
def iter (p : Params) (i : Index) (v : Triple) : Triple :=
  let xs := shiftedX v i
  let ys := shiftedY v i
  let a := memRead p i
  if directionPlus v.z then
    { x := wrap32 (sint v.x - sint ys), y := wrap32 (sint v.y + sint xs), z := wrap32 (sint v.z - sint a) }
  else
    { x := wrap32 (sint v.x + sint ys), y := wrap32 (sint v.y - sint xs), z := wrap32 (sint v.z + sint a) }

/-- `d · v` in the branch-free form: `wrap32(sint(v XOR m) - sint(m))` (R165). -/
def xorNegate (m v : Word) : Word := wrap32 (sint (v ^^^ m) - sint m)

/-- The permitted branch-free variant of the iteration, with `m = asr(z, 31)` (R165). ROTATE uses `iter`, the
normative form. -/
def iterXor (p : Params) (i : Index) (v : Triple) : Triple :=
  let m := asr v.z 31
  { x := wrap32 (sint v.x - sint (xorNegate m (shiftedY v i))),
    y := wrap32 (sint v.y + sint (xorNegate m (shiftedX v i))),
    z := wrap32 (sint v.z - sint (xorNegate m (memRead p i))) }

/-- `st` after iteration `i`: COMPOSE after the last one (R162). -/
def stAfterRotate (i : Index) : SeqState := if i = 15#4 then .compose else .rotate

/-- `cnt` after iteration `i`: `(i + 1) mod 16` (R162). -/
def cntAfterRotate (i : Index) : Index := i + 1#4

/-- ROTATE i (R162). `cneg`, `derr` and the result registers are unchanged. -/
def execRotate (i : Index) (s : State) : Host.Outcome State Fault Refusal :=
  .next (((s.setVector (iter s.params i s.vector)).setSeq (stAfterRotate i) (cntAfterRotate i)).setDone false)

end Sys2Proof.Machine
end

