-- ==== Sys2Proof/Machine/Sequencer.lean ====
section
/-! DEFINITION. The micro-operations of the sequencer alone (40_sequencer.md section 2). -/

namespace Sys2Proof.Machine

/-- IDLE_HOLD: `done <- 0`, every other register unchanged, `cnt` included (R103). -/
def execIdleHold (s : State) : Host.Outcome State Fault Refusal := .next (s.setDone false)

/-- ILLEGAL_RECOVER: back to IDLE with no result and no `done` pulse (R102). -/
def execIllegalRecover (s : State) : Host.Outcome State Fault Refusal :=
  .next ((s.setSeq .idle 0#4).setDone false)

end Sys2Proof.Machine
end

