-- ==== Sys2Proof/Machine/Dispatch.lean ====
section
/-! DEFINITION. One arm per micro-operation (40_sequencer.md R100). -/

namespace Sys2Proof.Machine

def exec (i : Instr) (s : State) : Host.Outcome State Fault Refusal :=
  match i with
  | .reset => Sys2Proof.Machine.execReset s
  | .idleHold => Sys2Proof.Machine.execIdleHold s
  | .load => Sys2Proof.Machine.execLoad s
  | .rotate i' => Sys2Proof.Machine.execRotate i' s
  | .compose => Sys2Proof.Machine.execCompose s
  | .illegalRecover => Sys2Proof.Machine.execIllegalRecover s

end Sys2Proof.Machine
end

