-- ==== Sys2Proof/Machine/Step.lean ====
section
/-! DEFINITION. One clock edge (40_sequencer.md R100), and the placing of a control word for the coming edge. -/

namespace Sys2Proof.Machine

/-- One rising edge: form `ctl`, decode it, perform the micro-operation; the edge's input vector is then gone. -/
def step (s : State) : Host.Outcome State Fault Refusal :=
  match exec (decode s.ctl) s with
  | .next t => .next t.afterEdge
  | .fault r => .fault r
  | .refused r => .refused r

/-- `s` with the control word `w` at the coming edge: `w`'s `st` and `cnt` in the sequencer registers, its `rst` and
`start` on the pins. The pin `angle_in` keeps the word driven for that edge, or is 0 if none is (log 7). -/
def State.withFetchWord (s : State) (_nbits w : Nat) : State :=
  let c : ControlWord := BitVec.ofNat 8 w
  let angle : Word := match s.stimulus with
    | v :: _ => v.angleIn
    | [] => 0#32
  { s with
    st := ctlSt c, cnt := ctlCnt c,
    stimulus := { rst := ctlRst c, start := ctlStart c, angleIn := angle } :: s.stimulus.tail }

end Sys2Proof.Machine
end

