-- ==== Sys2Proof/Machine/Stimulus.lean ====
section
/-! DEFINITION. The stimulus notation (30_encoding.md R77, R78) and the printed names (R79): the expansion of lines to
input vectors, their text, and the reading of that text. -/

namespace Sys2Proof.Machine

/-! ### Expansion -/

/-- The word a literal stands for; a decimal integer is taken as `wrap32` of itself (R77). -/
def literalWord : Literal → Word
  | .hex n => BitVec.ofNat 32 n
  | .dec v => wrap32 v

/-- The vector of `NOP` (R77). -/
def nopVector : InputVector := { rst := false, start := false, angleIn := 0x00000000#32 }

/-- The vector of `START` of a word (R77). -/
def startLine (w : Word) : InputVector := { rst := false, start := true, angleIn := w }

/-- The input vectors of a line, one for each edge (R77, R78). -/
def expandLine : Line → List InputVector
  | .reset => [{ rst := true, start := false, angleIn := 0x00000000#32 }]
  | .start w => [startLine (literalWord w)]
  | .nop => [nopVector]
  | .poke w => [{ rst := false, start := false, angleIn := literalWord w }]
  | .wait n => List.replicate n nopVector
  | .run w => startLine (literalWord w) :: List.replicate 17 nopVector

/-- The drive sequence of a program. -/
def assemble (program : List Line) : List InputVector := program.flatMap expandLine

/-- `s` with a drive sequence after the vectors it already lists. -/
def State.drive (s : State) (vs : List InputVector) : State := { s with stimulus := s.stimulus ++ vs }

/-! ### Text -/

/-- A hex digit, in capitals as the spec prints it. -/
def hexDigit (d : Nat) : Char := Nat.digitChar d |>.toUpper

/-- `k` hex digits of a number, the most significant first. -/
def hexDigits : Nat → Nat → List Char
  | 0, _ => []
  | k + 1, n => hexDigits k (n / 16) ++ [hexDigit (n % 16)]

/-- The decimal digits of a number. -/
def decDigits (n : Nat) : List Char := Nat.toDigits 10 n

/-- A literal as R77 writes it. -/
def printLiteral : Literal → List Char
  | .hex n => '0' :: 'x' :: hexDigits 8 n
  | .dec (.ofNat n) => decDigits n
  | .dec (.negSucc n) => '-' :: decDigits (n + 1)

/-- A line as R77 and R78 write it. -/
def printLine : Line → List Char
  | .reset => ['R', 'E', 'S', 'E', 'T']
  | .start w => ['S', 'T', 'A', 'R', 'T', ' '] ++ printLiteral w
  | .nop => ['N', 'O', 'P']
  | .poke w => ['P', 'O', 'K', 'E', ' '] ++ printLiteral w
  | .wait n => ['W', 'A', 'I', 'T', ' '] ++ decDigits n
  | .run w => ['R', 'U', 'N', ' '] ++ printLiteral w

/-- A micro-operation as R79 prints it: its name, and ROTATE's field in decimal. -/
def printInstr : Instr → String
  | .rotate i => (Instr.rotate i).mnemonic ++ " " ++ String.ofList (decDigits i.toNat)
  | i => i.mnemonic

/-- A control word as R79 prints it: `0x` and two hex digits. -/
def printCtl (c : ControlWord) : String := "0x" ++ String.ofList (hexDigits 2 c.toNat)

/-! ### Reading the text -/

/-- The value of a digit in a base, if the character is one. Hex digits are read in either case (log 9). -/
def digitValue (base : Nat) (c : Char) : Option Nat :=
  let v :=
    if '0' ≤ c ∧ c ≤ '9' then c.toNat - 48
    else if 'A' ≤ c ∧ c ≤ 'F' then c.toNat - 55
    else if 'a' ≤ c ∧ c ≤ 'f' then c.toNat - 87
    else base
  if v < base then some v else none

/-- The number a string of digits stands for, on top of the digits read before. -/
def readDigits (base : Nat) : Nat → List Char → Option Nat
  | acc, [] => some acc
  | acc, c :: cs =>
    match digitValue base c with
    | some d => readDigits base (acc * base + d) cs
    | none => none

/-- An unsigned decimal number: at least one digit, and nothing but digits. Leading zeros are admitted, so `007` is 7
(DESIGN CHOICE, log 9: R77 does not say). -/
def readNat : List Char → Option Nat
  | [] => none
  | c :: cs => readDigits 10 0 (c :: cs)

/-- A literal of R77, its range checked. The prefix is `0x` with a small `x`; a decimal integer has an optional minus
sign and no plus sign, and minus zero is admitted and is 0 (DESIGN CHOICE, log 9: R77 does not say). -/
def readLiteral (cs : List Char) : Option Literal :=
  let w : Option Literal :=
    match cs with
    | '0' :: 'x' :: ds => if ds.length = 8 then (readDigits 16 0 ds).map .hex else none
    | '-' :: ds => (readNat ds).map fun n => .dec (-(n : Int))
    | ds => (readNat ds).map fun n => .dec (n : Int)
  w.filter Literal.wellFormed

/-- A character that separates the words of a line (DESIGN CHOICE, log 9). -/
def isBlank (c : Char) : Bool := c == ' ' || c == '\t' || c == '\r'

/-- The words of a line up to its comment: "Text after `;` is a comment" (R77). `cur` is the word being read. -/
def splitWords : List Char → List Char → List (List Char)
  | cur, [] => if cur.isEmpty then [] else [cur]
  | cur, c :: cs =>
    if c == ';' then (if cur.isEmpty then [] else [cur])
    else if isBlank c then (if cur.isEmpty then splitWords [] cs else cur :: splitWords [] cs)
    else splitWords (cur ++ [c]) cs

/-- The line that a list of words is. DESIGN CHOICE, log 9: a line with no word is none; keywords are in capitals; and the
`n` of `WAIT <n>`, of which R78 says only `n >= 0`, is written in unsigned decimal digits (`readNat`), with no `0x` form
and no sign. -/
def readWords : List (List Char) → Option (List Line)
  | [] => some []
  | [['R', 'E', 'S', 'E', 'T']] => some [.reset]
  | [['N', 'O', 'P']] => some [.nop]
  | [['S', 'T', 'A', 'R', 'T'], w] => (readLiteral w).map fun l => [.start l]
  | [['P', 'O', 'K', 'E'], w] => (readLiteral w).map fun l => [.poke l]
  | [['W', 'A', 'I', 'T'], w] => (readNat w).map fun n => [.wait n]
  | [['R', 'U', 'N'], w] => (readLiteral w).map fun l => [.run l]
  | _ => none

/-- The line a text line holds, if it is one of R77 or R78. -/
def readLine (cs : List Char) : Option (List Line) := readWords (splitWords [] cs)

/-- The lines of a text, split at the line ends. -/
def splitLines : List Char → List Char → List (List Char)
  | cur, [] => [cur]
  | cur, c :: cs => if c == '\n' then cur :: splitLines [] cs else splitLines (cur ++ [c]) cs

/-- The lines of a program's text, all of them well formed, or nothing. -/
def readLines : List (List Char) → Option (List Line)
  | [] => some []
  | l :: ls =>
    match readLine l, readLines ls with
    | some a, some b => some (a ++ b)
    | _, _ => none

/-- A stimulus program from its text (R77). -/
def readProgram (text : List Char) : Option (List Line) := readLines (splitLines [] text)

end Sys2Proof.Machine
end

