-- ==== Sys2Proof/Machine/Transaction.lean ====
section
/-! DEFINITION. The transaction as a function (40_sequencer.md section 4). -/

namespace Sys2Proof.Machine

/-- The triple after the first `k` iterations, in increasing `i`, from `(K_Q, 0, r)` (R106). -/
def iterates (p : Params) (r : Word) : Nat → Triple
  | 0 => startVector p r
  | k + 1 => iter p (BitVec.ofNat 4 k) (iterates p r k)

/-- `ENGINE(r)`: all sixteen iterations (R106, 43_rotation_engine.md R166). -/
def engine (p : Params) (r : Word) : Triple := iterates p r 16

/-- `CORDIC_FN(a)`: the function the block computes (R107). -/
def cordicFn (p : Params) (a : Word) : Result :=
  let red := reduce p a
  let v := engine p red.angle
  { cos := composeCos red.neg v.x, sin := v.y, err := domainErr p a }

end Sys2Proof.Machine
end

