-- ==== Sys2Proof/Safety.lean ====
section
/-! DEFINITION. The terms claims use: runs of several edges, what an edge or a run is given, what it keeps, and the
invariants. The block has no unsafe step: no edge faults or refuses (60_exceptions.md R200). -/

namespace Sys2Proof.Machine

/-- The state after `k` clock edges, stopping at a fault or a refusal (there is none). -/
def edges : Nat → State → Host.Outcome State Fault Refusal
  | 0, s => .next s
  | k + 1, s =>
    match step s with
    | .next t => edges k t
    | .fault r => .fault r
    | .refused r => .refused r

/-- The micro-operation of the coming edge (40_sequencer.md R100). -/
def State.op (s : State) : Instr := decode s.ctl

/-! ### What a run is given -/

/-- `rst = 0` at the next `k` edges. -/
def NoReset (k : Nat) (s : State) : Prop := ∀ j < k, (s.inputAt j).rst = false

/-- The coming edge takes a request for the angle `a`: IDLE, `rst = 0`, `start = 1`, `angle_in = a`. -/
structure Accepts (s : State) (a : Word) : Prop where
  idle  : s.st = .idle
  rst   : s.pins.rst = false
  start : s.pins.start = true
  angle : s.pins.angleIn = a

/-! ### What an edge keeps -/

/-- The ROM, read word by word, and the constants are unchanged (20_memory.md R54). -/
structure BuildKept (s t : State) : Prop where
  rom       : ∀ i, memRead t.params i = memRead s.params i
  constants : t.params = s.params

/-- The environment's fields, which only the passing of an edge changes, are unchanged. -/
structure EnvironmentKept (s t : State) : Prop where
  stimulus : t.stimulus = s.stimulus
  undriven : t.undriven = s.undriven

/-- The three result registers are unchanged (10_state.md R32, R33). -/
structure ResultKept (s t : State) : Prop where
  cosOut : t.cosOut = s.cosOut
  sinOut : t.sinOut = s.sinOut
  domErr : t.domErr = s.domErr

/-- The working triple is unchanged (10_state.md R22 to R24). -/
structure VectorKept (s t : State) : Prop where
  x : t.x = s.x
  y : t.y = s.y
  z : t.z = s.z

/-- `cneg` and `derr` are unchanged (10_state.md R26, R27). -/
structure SignsKept (s t : State) : Prop where
  cneg : t.cneg = s.cneg
  derr : t.derr = s.derr

/-- Every register has its reset value, and `busy` is 0 (10_state.md R39). -/
structure RegistersAtReset (t : State) : Prop where
  st     : t.st = .idle
  cnt    : t.cnt.toNat = 0
  x      : t.x = 0x00000000#32
  y      : t.y = 0x00000000#32
  z      : t.z = 0x00000000#32
  cneg   : t.cneg = false
  derr   : t.derr = false
  cosOut : t.cosOut = 0x00000000#32
  sinOut : t.sinOut = 0x00000000#32
  domErr : t.domErr = false
  done   : t.done = false
  busy   : t.busy = false

/-! ### Invariants -/

/-- The control position is one that a run from reset reaches: `cnt = 0` in IDLE and COMPOSE, and `st != 11`
(30_encoding.md R76). -/
abbrev ReachableControl (s : State) : Prop :=
  s.st ≠ .illegal ∧ (s.st = .idle ∨ s.st = .compose → s.cnt = 0#4)

/-- The transaction in flight is that of some angle `a`: after `k` iterations, with the flags LOAD derived from `a`. -/
structure InFlight (s : State) (a : Word) (k : Nat) : Prop where
  vector : s.vector = iterates s.params (reduce s.params a).angle k
  cneg   : s.cneg = (reduce s.params a).neg
  derr   : s.derr = domainErr s.params a

/-- The datapath agrees with the sequencer position: in ROTATE, `cnt` iterations of some angle's transaction are done;
in COMPOSE all sixteen are. -/
def DatapathCoherent (s : State) : Prop :=
  match s.st with
  | .idle => True
  | .rotate => ∃ a, InFlight s a s.cnt.toNat
  | .compose => ∃ a, InFlight s a 16
  | .illegal => False

/-- The result registers hold the reset values or the block's function of some angle; and `done = 1` only in IDLE, with
a computed result. -/
def ResultCoherent (s : State) : Prop :=
  (s.result = ⟨0#32, 0#32, false⟩ ∨ ∃ a, s.result = cordicFn s.params a) ∧
  (s.done = true → s.st = .idle ∧ ∃ a, s.result = cordicFn s.params a)

/-- The invariant of every run from a RESET edge. -/
structure Coherent (s : State) : Prop where
  control  : ReachableControl s
  datapath : DatapathCoherent s
  result   : ResultCoherent s

end Sys2Proof.Machine
end

