-- ==== Sys2Proof/Certificates/Slice0/Obligations.lean ====
section
/-! DEFINITION. The statements for the provers, each from the spec's numbered rules. A statement about `exec i s`
holds for every state `s`, for every ROM and every constant unless it names the defaults. -/

open Sys2Proof Sys2Proof.Machine

/-! ## Reset -/

/-- R39: the registers after RESET, whatever they held; ROM and constants are not affected; and `State.reset` is such
a state. That `State.reset` holds the default parameters of R7 is the model's choice (DESIGN CHOICE, log 3). -/
def Obligations.ResetValuesAreThoseOfTheTable : Prop :=
  RegistersAtReset State.reset ∧ State.reset.params = defaultParams ∧
  ∀ s : State, ∃ t, exec .reset s = .next t ∧ RegistersAtReset t ∧ BuildKept s t

/-- R220: the encoding of RESET; its whole effect, in every state; and at an edge with `rst = 1` every other input
and register is ignored. -/
def Obligations.ResetClearsEveryRegister : Prop :=
  (∀ c, decode c = .reset ↔ c &&& 0x80#8 = 0x80#8) ∧
  (∀ s : State, ∃ t, exec .reset s = .next t ∧ RegistersAtReset t ∧ BuildKept s t ∧ EnvironmentKept s t) ∧
  (∀ s : State, s.pins.rst = true → ∃ u, step s = .next u ∧ RegistersAtReset u ∧ BuildKept s u)

/-! ## One statement for each other micro-operation: encoding, whole effect and frame -/

/-- R103: IDLE_HOLD writes `done` and nothing else, `cnt` included. -/
def Obligations.IdleHoldOnlyClearsDone : Prop :=
  (∀ c, decode c = .idleHold ↔ c &&& 0xF0#8 = 0x00#8) ∧
  ∀ s : State, ∃ t, exec .idleHold s = .next t ∧
    t.done = false ∧ t.st = s.st ∧ t.cnt = s.cnt ∧
    VectorKept s t ∧ SignsKept s t ∧ ResultKept s t ∧ BuildKept s t ∧ EnvironmentKept s t

/-- R127: LOAD starts a transaction for the angle on the pins; the previous result stays visible. The last three
clauses are the rule's corner cases and example, at the default parameters. -/
def Obligations.LoadStartsTransaction : Prop :=
  (∀ c, decode c = .load ↔ c &&& 0xF0#8 = 0x40#8) ∧
  (∀ s : State, ∃ t, exec .load s = .next t ∧
    t.x = s.params.kQ ∧ t.y.toNat = 0 ∧ t.z = (reduce s.params s.pins.angleIn).angle ∧
    t.cneg = (reduce s.params s.pins.angleIn).neg ∧ t.derr = domainErr s.params s.pins.angleIn ∧
    t.cnt.toNat = 0 ∧ t.st = .rotate ∧ t.done = false ∧ t.busy = true ∧
    ResultKept s t ∧ BuildKept s t ∧ EnvironmentKept s t) ∧
  (reduce defaultParams 0x80000000#32 = ⟨0xE487ED51#32, false⟩ ∧ domainErr defaultParams 0x80000000#32 = true) ∧
  (reduce defaultParams 0x7FFFFFFF#32 = ⟨0x1B7812AE#32, false⟩ ∧ domainErr defaultParams 0x7FFFFFFF#32 = true) ∧
  (reduce defaultParams 0x3243F6A9#32 = ⟨0x00000000#32, true⟩ ∧ domainErr defaultParams 0x3243F6A9#32 = false ∧
    defaultParams.kQ = 0x09B74EDB#32)

/-- R162: ROTATE i, in integers: the direction `d` is the sign of `z`, the shifts are floor divisions, all three
results are computed from the old values and narrowed to 32 bits. -/
def Obligations.RotatePerformsOneIteration : Prop :=
  (∀ c i, decode c = .rotate i ↔ c &&& 0xB0#8 = 0x10#8 ∧ i.toNat = c.toNat % 16) ∧
  ∀ (s : State) (i : Index),
    let d : Int := if 0 ≤ s.z.toInt then 1 else -1
    ∃ t, exec (.rotate i) s = .next t ∧
      t.x = BitVec.ofInt 32 (s.x.toInt - d * (s.y.toInt / 2 ^ i.toNat)) ∧
      t.y = BitVec.ofInt 32 (s.y.toInt + d * (s.x.toInt / 2 ^ i.toNat)) ∧
      t.z = BitVec.ofInt 32 (s.z.toInt - d * (memRead s.params i).toInt) ∧
      t.cnt.toNat = (i.toNat + 1) % 16 ∧
      t.st = (if i.toNat = 15 then .compose else .rotate) ∧
      t.done = false ∧
      SignsKept s t ∧ ResultKept s t ∧ BuildKept s t ∧ EnvironmentKept s t

/-- R180: COMPOSE publishes `(±x, y, derr)`, pulses `done` and returns to IDLE; the datapath keeps its values. -/
def Obligations.ComposePublishesTheResult : Prop :=
  (∀ c, decode c = .compose ↔ c &&& 0xB0#8 = 0x20#8) ∧
  ∀ s : State, ∃ t, exec .compose s = .next t ∧
    t.cosOut = (if s.cneg then -s.x else s.x) ∧ t.sinOut = s.y ∧ t.domErr = s.derr ∧
    t.done = true ∧ t.st = .idle ∧ t.cnt.toNat = 0 ∧ t.busy = false ∧
    VectorKept s t ∧ SignsKept s t ∧ BuildKept s t ∧ EnvironmentKept s t

/-- R102: ILLEGAL_RECOVER returns to IDLE with no result and no `done` pulse; and from an ILLEGAL cycle the edge
performs it whatever `start` is. -/
def Obligations.IllegalRecoverReturnsToIdle : Prop :=
  (∀ c, decode c = .illegalRecover ↔ c &&& 0xB0#8 = 0x30#8) ∧
  (∀ s : State, ∃ t, exec .illegalRecover s = .next t ∧
    t.st = .idle ∧ t.cnt.toNat = 0 ∧ t.done = false ∧ t.busy = false ∧
    VectorKept s t ∧ SignsKept s t ∧ ResultKept s t ∧ BuildKept s t ∧ EnvironmentKept s t) ∧
  (∀ s : State, s.st = .illegal → s.busy = true ∧
    (s.pins.rst = false → s.op = .illegalRecover))

/-! ## Encoding -/

/-- R71 and R73: exactly one row of the opcode table matches each control word, and it is the decoded
micro-operation's row; ROTATE's field is `ctl[3:0]`. -/
def Obligations.DecoderFollowsTheOpcodeTable : Prop :=
  (∀ c, (opcodeTable.filter fun r => r.admits c).length = 1) ∧
  (∀ c, tableMnemonic c = some (decode c).mnemonic) ∧
  (∀ c i, decode c = .rotate i → i.toNat = c.toNat % 16)

/-- A few control words of the tables in 95_test_vectors.md, decoded. -/
def Obligations.VectorControlWordsDecode : Prop :=
  decode 0b00000000#8 = .idleHold ∧ decode 0b00001001#8 = .idleHold ∧ decode 0b01000000#8 = .load ∧
  decode 0b00010101#8 = .rotate 5#4 ∧ decode 0b01010001#8 = .rotate 1#4 ∧ decode 0b00011111#8 = .rotate 15#4 ∧
  decode 0b00100000#8 = .compose ∧ decode 0b01100000#8 = .compose ∧ decode 0b01110111#8 = .illegalRecover ∧
  decode 0b10000000#8 = .reset ∧ decode 0b11011001#8 = .reset

/-- Decoding undoes encoding, through the table's numbering as well, and only bytes are control words. -/
def Obligations.DecodeUndoesEncode : Prop :=
  (∀ i : Instr, i.wellFormed = true → decode (encode i) = i ∧ decodeTableWord 8 (encode i).toNat = some i) ∧
  (∀ bytes : List (BitVec 8), (∃ i, decodeBytes bytes = .ok i) ↔ bytes.length = 1)

/-- The model's placing of a control word (log 7): the coming edge sees exactly that word, in every state, and
performs what it decodes to. -/
def Obligations.PlacedWordRunsAtTheNextEdge : Prop :=
  ∀ (s : State) (w : Nat), w < 256 →
    (s.withFetchWord 8 w).ctl.toNat = w ∧
    ∃ i, decodeTableWord 8 w = some i ∧ (s.withFetchWord 8 w).op = i ∧
      ∃ t, exec i (s.withFetchWord 8 w) = .next t ∧ step (s.withFetchWord 8 w) = .next t.afterEdge

/-- R74: the ignored bits. `start` (pins of the coming edge) outside IDLE; `cnt` outside ROTATE; everything but
`rst` under `rst = 1`. An ignored request leaves the same state, so it is not remembered. -/
def Obligations.IgnoredBitsAreIgnored : Prop :=
  (∀ (s : State) (v : InputVector) (vs : List InputVector) (b : Bool), s.st ≠ .idle →
    step { s with stimulus := { v with start := b } :: vs } = step { s with stimulus := v :: vs }) ∧
  (∀ (r b : Bool) (q : SeqState) (n n' : Index), q ≠ .rotate →
    decode (makeCtl r b q n) = decode (makeCtl r b q n')) ∧
  (∀ (b b' : Bool) (q q' : SeqState) (n n' : Index),
    decode (makeCtl true b q n) = decode (makeCtl true b' q' n'))

/-- R77: an input vector is `{rst, start, angle_in}`, 34 bits, both ways; the vectors of the four lines; what a
well-formed word literal stands for; and the rule's example. -/
def Obligations.InputVectorsEncodeAndDecode : Prop :=
  (∀ v : InputVector, v.toBits.toNat = v.rst.toNat * 2 ^ 33 + v.start.toNat * 2 ^ 32 + v.angleIn.toNat) ∧
  (∀ v : InputVector, InputVector.ofBits v.toBits = v) ∧
  (∀ b : BitVec 34, (InputVector.ofBits b).toBits = b) ∧
  (∀ w : Literal, expandLine .reset = [⟨true, false, 0#32⟩] ∧ expandLine (.start w) = [⟨false, true, literalWord w⟩] ∧
    expandLine .nop = [⟨false, false, 0#32⟩] ∧ expandLine (.poke w) = [⟨false, false, literalWord w⟩]) ∧
  (∀ n : Nat, (Literal.hex n).wellFormed = true → (literalWord (.hex n)).toNat = n) ∧
  (∀ v : Int, ((Literal.dec v).wellFormed = true ↔ -2 ^ 31 ≤ v ∧ v ≤ 2 ^ 31 - 1) ∧
    ((Literal.dec v).wellFormed = true → (literalWord (.dec v)).toInt = v)) ∧
  (expandLine (.start (.hex 0x3243F6A9))).map InputVector.toBits = [0b01#2 ++ 0x3243F6A9#32]

/-- The text of a stimulus program reads back as the program, for every program of well-formed lines (the notation of
R77 and R78; spaces, blank lines and letter case are the model's, log 9). -/
def Obligations.StimulusTextReadsBack : Prop :=
  ∀ program : List Line, (∀ l ∈ program, l.wellFormed = true) →
    readProgram (program.flatMap fun l => printLine l ++ ['\n']) = some program

/-! ## The step -/

/-- R70 and R100: the control word's bits; a step performs exactly the micro-operation it decodes to, and the edge's
input is then gone; it always answers a next state; the outputs are functions of the state. -/
def Obligations.StepPerformsTheDecodedMicroOperation : Prop :=
  (∀ s : State, s.ctl.toNat =
    s.pins.rst.toNat * 128 + s.pins.start.toNat * 64 + s.st.toBits.toNat * 16 + s.cnt.toNat) ∧
  (∀ (s : State) (i : Instr), decode s.ctl = i → ∃ t u, exec i s = .next t ∧ step s = .next u ∧
    u.vector = t.vector ∧ u.cneg = t.cneg ∧ u.derr = t.derr ∧ u.st = t.st ∧ u.cnt = t.cnt ∧
    u.result = t.result ∧ u.done = t.done ∧ u.params = t.params ∧
    u.stimulus = s.stimulus.tail ∧ ∀ k, u.inputAt k = s.inputAt (k + 1)) ∧
  (∀ s : State, s.outputs = ⟨decide (s.st ≠ .idle), s.done, s.cosOut, s.sinOut, s.domErr⟩)

/-- R101: the next-state table, for every state and input. -/
def Obligations.NextStateTableHolds : Prop :=
  ∀ s : State, ∃ u, step s = .next u ∧
    (u.st, u.cnt.toNat, u.done) =
      if s.pins.rst then (.idle, 0, false)
      else match s.st with
        | .idle => if s.pins.start then (.rotate, 0, false) else (.idle, s.cnt.toNat, false)
        | .rotate => if s.cnt.toNat < 15 then (.rotate, s.cnt.toNat + 1, false) else (.compose, 0, false)
        | .compose => (.idle, 0, true)
        | .illegal => (.idle, 0, false)

/-- R31: `done` is 1 in exactly the cycle after a COMPOSE edge, and that cycle is an IDLE cycle. -/
def Obligations.DoneMarksTheCycleAfterCompose : Prop :=
  ∀ s u : State, step s = .next u →
    (u.done = true ↔ s.op = .compose) ∧ (u.done = true → u.st = .idle) ∧
    ∀ w, step u = .next w → u.done = true → w.done = false

/-- R22 to R24, R26, R27, R29, R31 to R33, R101: nothing but the named writers writes each register. `done` is written by
every edge: COMPOSE writes 1, every other micro-operation writes 0. -/
def Obligations.OnlyTheNamedWritersWrite : Prop :=
  ∀ s u : State, step s = .next u →
    (u.x ≠ s.x ∨ u.y ≠ s.y ∨ u.z ≠ s.z → s.op = .reset ∨ s.op = .load ∨ s.op = .rotate s.cnt) ∧
    (u.cneg ≠ s.cneg ∨ u.derr ≠ s.derr → s.op = .reset ∨ s.op = .load) ∧
    (u.result ≠ s.result → s.op = .reset ∨ s.op = .compose) ∧
    (u.st ≠ s.st ∨ u.cnt ≠ s.cnt → s.op = .reset ∨ s.op = .load ∨ s.op = .rotate s.cnt ∨ s.op = .compose ∨
      s.op = .illegalRecover) ∧
    (u.done ≠ s.done → if u.done then s.op = .compose else s.op ≠ .compose)

/-- R54: nothing writes the ROM and the constants, in any run. -/
def Obligations.RomAndConstantsAreNeverWritten : Prop :=
  ∀ (k : Nat) (s : State), ∃ u, edges k s = .next u ∧
    (∀ i, memRead u.params i = memRead s.params i) ∧ u.params = s.params

/-- R21: a change of `angle_in` in a cycle that does not end in a LOAD edge has no effect. -/
def Obligations.AngleMattersOnlyAtLoad : Prop :=
  ∀ (s : State) (v : InputVector) (vs : List InputVector) (a : Word),
    ({ s with stimulus := v :: vs } : State).op ≠ .load →
    step { s with stimulus := { v with angleIn := a } :: vs } = step { s with stimulus := v :: vs }

/-- R212, R103: in IDLE, with no request and no reset, every register but `done` holds its value, and `done` is cleared
at the first edge. -/
def Obligations.IdleHoldsEveryRegisterButDone : Prop :=
  ∀ (k : Nat) (s : State), s.st = .idle → (∀ j < k, (s.inputAt j).rst = false ∧ (s.inputAt j).start = false) →
    ∃ u, edges k s = .next u ∧ u.st = .idle ∧ u.cnt = s.cnt ∧ VectorKept s u ∧ SignsKept s u ∧
      ResultKept s u ∧ BuildKept s u ∧ u.done = (if k = 0 then s.done else false)

/-! ## The constants -/

/-- R51 and R53: the ROM of a block with the default parameters, and its properties. -/
def Obligations.DefaultRomWordsAndProperties : Prop :=
  ((List.finRange 16).map fun i => (memRead defaultParams (BitVec.ofFin i)).toNat) =
    [210828714, 124459457, 65760959, 33381290, 16755422, 8385879, 4193963, 2097109,
     1048571, 524287, 262144, 131072, 65536, 32768, 16384, 8192] ∧
  (∀ i : Index, i.toNat < 15 →
    sint (memRead defaultParams (i + 1#4)) < sint (memRead defaultParams i) ∧
    sint (memRead defaultParams i) ≤ 2 * sint (memRead defaultParams (i + 1#4))) ∧
  (∀ i : Index, 10 ≤ i.toNat → i.toNat ≤ 14 →
    sint (memRead defaultParams i) = 2 * sint (memRead defaultParams (i + 1#4))) ∧
  (∀ i : Index, 0 < sint (memRead defaultParams i) ∧
    sint (memRead defaultParams i) < sint defaultParams.halfPiQ) ∧
  sint (memRead defaultParams 0#4) = sint defaultParams.piQ / 4 ∧
  ((List.finRange 16).map fun i => (memRead defaultParams (BitVec.ofFin i)).toNat).sum = 467951747

/-- R51, R50: every default ROM word is `arctan(2^-i) · 2^28` rounded to nearest. -/
def Obligations.RomWordsAreRoundedArctangents : Prop :=
  ∀ i : Index, |(sint (memRead defaultParams i) : ℝ) - Real.arctan ((2 : ℝ)⁻¹ ^ i.toNat) * 2 ^ 28| ≤ 1 / 2

/-- R7, R121: the four angle constants are their multiples of π rounded to nearest, and disagree with each other by
the rounding the rule names. -/
def Obligations.AngleConstantsAreRoundedMultiplesOfPi : Prop :=
  |(sint defaultParams.halfPiQ : ℝ) - Real.pi / 2 * 2 ^ 28| ≤ 1 / 2 ∧
  |(sint defaultParams.piQ : ℝ) - Real.pi * 2 ^ 28| ≤ 1 / 2 ∧
  |(sint defaultParams.threeHalfPiQ : ℝ) - 3 * Real.pi / 2 * 2 ^ 28| ≤ 1 / 2 ∧
  |(sint defaultParams.twoPiQ : ℝ) - 2 * Real.pi * 2 ^ 28| ≤ 1 / 2 ∧
  2 * sint defaultParams.halfPiQ = sint defaultParams.piQ - 1 ∧
  2 * sint defaultParams.piQ = sint defaultParams.twoPiQ + 1

/-- R142: `K_Q` is the reciprocal of the sixteen-step gain, times `2^28`, rounded to nearest. -/
def Obligations.GainConstantIsTheRoundedReciprocalGain : Prop :=
  |(sint defaultParams.kQ : ℝ) -
    (∏ i ∈ Finset.range 16, Real.sqrt (1 + (2 : ℝ)⁻¹ ^ (2 * i)))⁻¹ * 2 ^ 28| ≤ 1 / 2

/-! ## The range reducer -/

/-- R125: the ranges of REDUCE at the default parameters, for every 32-bit input: no `wrap32` changes a value, the
paths, and the ranges of the result in and out of the domain. -/
def Obligations.ReduceStaysInItsRanges : Prop :=
  ∀ a : Word,
    let v := a.toInt
    let v1 := if v < -421657428 then v + 1686629713 else v
    let v2 := if v1 > 1264972285 then v1 - 1686629713 else if v1 > 421657428 then 843314857 - v1 else v1
    ((reduce defaultParams a).angle.toInt = v2 ∧
      ((reduce defaultParams a).neg = true ↔ 421657428 < v1 ∧ v1 ≤ 1264972285)) ∧
    (v < -421657428 → -460853935 ≤ v1 ∧ v1 ≤ 1264972284) ∧
    (v1 > 1264972285 → -421657427 ≤ v2 ∧ v2 ≤ 460853934) ∧
    (v1 ≤ 1264972285 → v1 > 421657428 → -421657428 ≤ v2 ∧ v2 ≤ 421657428) ∧
    (domainErr defaultParams a = false →
      -421657428 ≤ (reduce defaultParams a).angle.toInt ∧ (reduce defaultParams a).angle.toInt ≤ 421657428) ∧
    (-460853935 ≤ (reduce defaultParams a).angle.toInt ∧ (reduce defaultParams a).angle.toInt ≤ 460853934)

/-- R128: the reducer and the domain check at the boundary inputs. -/
def Obligations.ReducerBoundaryTable : Prop :=
  ([0xE6DE04AC#32, 0x1921FB54#32, 0x4B65F1FD#32, 0x9B7812AF#32, 0x6487ED51#32, 0x3243F6A9#32, 0xCDBC0957#32,
    0x00000000#32, 0x9B7812AE#32, 0x6487ED52#32].map fun a =>
      ((reduce defaultParams a).angle, (reduce defaultParams a).neg, domainErr defaultParams a)) =
    [(0xE6DE04AC#32, false, false), (0x1921FB54#32, false, false), (0xE6DE04AC#32, true, false),
     (0x00000000#32, false, false), (0x00000000#32, false, false), (0x00000000#32, true, false),
     (0x00000001#32, true, false), (0x00000000#32, false, false), (0xFFFFFFFF#32, false, true),
     (0x00000001#32, false, true)]

/-- R126, at any parameters: the flag is the closed interval's complement; at the defaults the bounds are ±2π's words. -/
def Obligations.DomainFlagIsTheClosedInterval : Prop :=
  (∀ (p : Params) (a : Word), domainErr p a = false ↔ -p.twoPiQ.toInt ≤ a.toInt ∧ a.toInt ≤ p.twoPiQ.toInt) ∧
  (∀ a : Word, domainErr defaultParams a = true ↔ a.toInt < -1686629713 ∨ 1686629713 < a.toInt)

/-- R129: the reduction preserves the sine, and the cosine up to the recorded sign, within one unit of `2^-28`: the
rounding of the constants is the only error. `real` is R12's reading of a word. -/
def Obligations.ReductionPreservesCosineAndSine : Prop :=
  |(sint defaultParams.twoPiQ : ℝ) - 2 * Real.pi * 2 ^ 28| < 0.07 ∧
  |(sint defaultParams.piQ : ℝ) - Real.pi * 2 ^ 28| < 0.47 ∧
  ∀ a : Word,
    let real : Word → ℝ := fun v => (sint v : ℝ) / 2 ^ 28
    let r := reduce defaultParams a
    let sign : ℝ := if r.neg then -1 else 1
    |sign * Real.cos (real r.angle) - Real.cos (real a)| ≤ 0.54 / 2 ^ 28 ∧
    |Real.sin (real r.angle) - Real.sin (real a)| ≤ 0.54 / 2 ^ 28

/-! ## The rotation engine -/

/-- R164: the shift is the floor of the division, bit 31 copied into the vacated bits. -/
def Obligations.ShiftRoundsTowardMinusInfinity : Prop :=
  ∀ (v : Word) (i : Index),
    (asr v (shiftAmount i)).toInt = v.toInt / 2 ^ i.toNat ∧
    ∀ j < 32, (asr v (shiftAmount i)).getLsbD j = if j + i.toNat < 32 then v.getLsbD (j + i.toNat) else v.getLsbD 31

/-- R165: the branch-free variant is bit-identical to the iteration for every operand, ROM and index. -/
def Obligations.BranchFreeVariantAgrees : Prop :=
  (∀ v : Word, xorNegate 0x00000000#32 v = v ∧ xorNegate 0xFFFFFFFF#32 v = wrap32 (-sint v)) ∧
  ∀ (p : Params) (i : Index) (v : Triple), iterXor p i v = iter p i v

/-- R167 (a): in every transaction the remaining angle stays within ±460853935, and its update never wraps. -/
def Obligations.RemainingAngleNeverWraps : Prop :=
  ∀ (a : Word) (k : Nat), k ≤ 16 →
    let v := iterates defaultParams (reduce defaultParams a).angle
    |sint (v k).z| ≤ 460853935 ∧
    (k < 16 → sint (v (k + 1)).z =
      sint (v k).z - (if 0 ≤ sint (v k).z then 1 else -1) * sint (memRead defaultParams (BitVec.ofNat 4 k)))

/-- R167 (b): in every transaction the vector stays far inside the 32-bit range, and its update never wraps. -/
def Obligations.VectorNeverWraps : Prop :=
  ∀ (a : Word) (k : Nat), k ≤ 16 →
    let v := iterates defaultParams (reduce defaultParams a).angle
    let d : Int := if 0 ≤ sint (v k).z then 1 else -1
    |sint (v k).x| < 2 ^ 28 + 64 ∧ |sint (v k).y| < 2 ^ 28 + 64 ∧
    (k < 16 → sint (v (k + 1)).x = sint (v k).x - d * (sint (v k).y / 2 ^ k) ∧
      sint (v (k + 1)).y = sint (v k).y + d * (sint (v k).x / 2 ^ k))

/-- R167 (c): sixteen iterations bring every reduced angle within the last ROM word of 0; the ROM's property that makes
it so. -/
def Obligations.ResidualAngleIsAtMostTheLastWord : Prop :=
  (∀ i < 16, sint (memRead defaultParams (BitVec.ofNat 4 i)) ≤
    ((List.range 16).filter (fun j => i < j)).foldr (fun j n => sint (memRead defaultParams (BitVec.ofNat 4 j)) + n) 0
      + sint (memRead defaultParams 15#4)) ∧
  (∀ r : Word, |sint r| ≤ 467951747 + 8192 → |sint (engine defaultParams r).z| ≤ 8192) ∧
  (∀ a : Word, |sint (engine defaultParams (reduce defaultParams a).angle).z| ≤ 8192)

/-- R181: the composer's negation is exact on every `x` a transaction reaches, and `wrap32` on the others. -/
def Obligations.ComposedNegationIsExact : Prop :=
  (∀ a : Word, |sint (engine defaultParams (reduce defaultParams a).angle).x| < 2 ^ 28 + 64 ∧ sint (composeCos true (engine defaultParams (reduce defaultParams a).angle).x) =
    -sint (engine defaultParams (reduce defaultParams a).angle).x) ∧
  (∀ x : Word, composeCos true x = wrap32 (0 - sint x)) ∧
  composeCos true 0x80000000#32 = 0x80000000#32

/-! ## The transaction -/

/-- R105: the schedule of one transaction, edge by edge, with the datapath at each: E(k) for k = 0 to 17 leaves the
state after `k + 1` edges. The previous result stays until E17. -/
def Obligations.TransactionSchedule : Prop :=
  ∀ (s : State) (a : Word), Accepts s a → NoReset 18 s →
    (∀ k ≤ 15, ∃ u, edges (k + 1) s = .next u ∧ u.st = .rotate ∧ u.cnt.toNat = k ∧
      u.op = .rotate (BitVec.ofNat 4 k) ∧ u.busy = true ∧ u.done = false ∧ u.result = s.result ∧
      u.vector = iterates s.params (reduce s.params a).angle k) ∧
    (∃ u, edges 17 s = .next u ∧ u.st = .compose ∧ u.op = .compose ∧ u.busy = true ∧ u.done = false ∧
      u.result = s.result ∧ u.vector = engine s.params (reduce s.params a).angle) ∧
    (∃ u, edges 18 s = .next u ∧ u.busy = false ∧ u.done = true ∧ u.result = cordicFn s.params a ∧
      ((s.inputAt 18).rst = false → (s.inputAt 18).start = true → u.op = .load))

/-- R108: the adequacy of the transaction: from any IDLE state, 18 edges compute `CORDIC_FN(a)`, whatever `start` and
`angle_in` are at the last 17 and whatever the registers held. -/
def Obligations.TransactionComputesCordicFn : Prop :=
  ∀ (s : State) (a : Word), s.st = .idle → (s.inputAt 0).start = true → (s.inputAt 0).angleIn = a → NoReset 18 s →
    ∃ u, edges 18 s = .next u ∧
      (⟨u.cosOut, u.sinOut, u.domErr⟩ : Result) = cordicFn s.params a ∧
      u.done = true ∧ u.st = .idle ∧ u.cnt.toNat = 0

/-- R109: two transactions with the same angle, on blocks with the same constants, give the same words, whatever came
before them and whatever the other inputs are. -/
def Obligations.SameAngleGivesSameResult : Prop :=
  ∀ (s s' : State) (a : Word), s.params = s'.params → Accepts s a → Accepts s' a → NoReset 18 s → NoReset 18 s' →
    ∃ u u', edges 18 s = .next u ∧ edges 18 s' = .next u' ∧
      u.cosOut = u'.cosOut ∧ u.sinOut = u'.sinOut ∧ u.domErr = u'.domErr

/-- R201: a domain violation shows in `dom_err` from the COMPOSE edge of its transaction until the next COMPOSE or
RESET edge; before, `dom_err` is that of the previous result; the result is computed as for any other input. -/
def Obligations.DomainViolationIsReportedWithTheResult : Prop :=
  (∀ s u : State, step s = .next u → s.op ≠ .compose → s.op ≠ .reset → u.domErr = s.domErr) ∧
  ∀ (s : State) (a : Word), Accepts s a → NoReset 18 s → s.params.twoPiQ = defaultParams.twoPiQ →
    (∀ k ≤ 17, ∃ u, edges k s = .next u ∧ u.domErr = s.domErr) ∧
    (∃ u, edges 1 s = .next u ∧ (u.derr = true ↔ a.toInt < -1686629713 ∨ 1686629713 < a.toInt)) ∧
    (∃ u, edges 18 s = .next u ∧ (u.domErr = true ↔ a.toInt < -1686629713 ∨ 1686629713 < a.toInt) ∧
      u.cosOut = (cordicFn s.params a).cos ∧ u.sinOut = (cordicFn s.params a).sin)

/-- R227: with `start` held high the block runs one transaction every 18 edges, each with the angle of its own LOAD
cycle. -/
def Obligations.HeldStartRunsBackToBack : Prop :=
  ∀ (n : Nat) (s : State), s.st = .idle →
    (∀ j < 18 * (n + 1), (s.inputAt j).rst = false ∧ (s.inputAt j).start = true) →
    ∃ u, edges (18 * (n + 1)) s = .next u ∧ u.st = .idle ∧ u.done = true ∧
      u.result = cordicFn s.params (s.inputAt (18 * n)).angleIn

/-- R78: after the 18 edges of `RUN <w>` from IDLE the block is in IDLE with `done = 1` and the result of `<w>`; the
rest of the program is still to be driven. `WAIT <n>` is `n` lines of NOP. -/
def Obligations.RunLineComputesItsAngle : Prop :=
  (∀ n, expandLine (.wait n) = (List.replicate n Line.nop).flatMap expandLine) ∧
  (∀ w, expandLine (.run w) = assemble [.start w, .wait 17] ∧ (expandLine (.run w)).length = 18) ∧
  ∀ (s : State) (w : Literal) (rest : List InputVector), s.st = .idle → s.stimulus = expandLine (.run w) ++ rest →
    ∃ u, edges 18 s = .next u ∧ u.st = .idle ∧ u.done = true ∧ u.result = cordicFn s.params (literalWord w) ∧
      u.stimulus = rest

/-! ## Whole-machine rules -/

/-- R76: the invariant of the control position, kept by every edge, and the control words it allows. -/
def Obligations.ReachableControlIsKept : Prop :=
  (∀ s u : State, ReachableControl s → step s = .next u → ReachableControl u) ∧
  (∀ s : State, ReachableControl s → s.pins.rst = false →
    s.ctl.toNat ∈ [0x00, 0x40, 0x20, 0x60] ∨ (0x10 ≤ s.ctl.toNat ∧ s.ctl.toNat ≤ 0x1F) ∨
      (0x50 ≤ s.ctl.toNat ∧ s.ctl.toNat ≤ 0x5F))

/-- Every edge keeps the coherence of the block: control position, datapath, and published result. -/
def Obligations.CoherenceIsKeptByEveryEdge : Prop :=
  ∀ s u : State, Coherent s → step s = .next u → Coherent u

/-- Coherence holds at reset, and after a RESET edge from any state at all. -/
def Obligations.CoherenceHoldsAfterReset : Prop :=
  Coherent State.reset ∧ ∀ s : State, s.pins.rst = true → ∃ u, step s = .next u ∧ Coherent u

/-- R221: from any state, without a RESET, the block reaches IDLE within 17 edges; and the first RESET edge reaches
the reset state. -/
def Obligations.IdleIsReachedWithinSeventeenEdges : Prop :=
  (∀ s : State, NoReset 17 s → ∃ k ≤ 17, ∃ u, edges k s = .next u ∧ u.st = .idle) ∧
  (∀ s : State, s.pins.rst = true → ∃ u, step s = .next u ∧ RegistersAtReset u)

/-- R38: COMPOSE and the IDLE_HOLD edges after it keep `x`, `y`, `z`, `cneg` and `derr`; and no output and no later
result depends on these stale values (nor on a stale `cnt`, R221): two IDLE states that differ in them alone show the
same outputs at every later edge, whatever is driven. -/
def Obligations.StaleDatapathIsUnobservable : Prop :=
  (∀ s u : State, step s = .next u → s.op = .compose ∨ s.op = .idleHold → VectorKept s u ∧ SignsKept s u) ∧
  ∀ (k : Nat) (s : State) (v : Triple) (b d : Bool) (n : Index), s.st = .idle →
    ∃ u u', edges k s = .next u ∧
      edges k (((s.setVector v).setSigns b d).setSeq .idle n) = .next u' ∧ u.outputs = u'.outputs

/-- R222: after a RESET edge the block waits in IDLE with all results 0, and the first transaction starts at the first
edge with `rst = 0` and `start = 1`, be it the very next one (`n = 0`). -/
def Obligations.FirstTransactionAfterReset : Prop :=
  ∀ (s : State) (n : Nat) (a : Word), s.pins.rst = true →
    (∀ j, 1 ≤ j → j ≤ n → (s.inputAt j).rst = false ∧ (s.inputAt j).start = false) →
    (s.inputAt (n + 1)).start = true → (s.inputAt (n + 1)).angleIn = a →
    (∀ j, n + 1 ≤ j → j ≤ n + 18 → (s.inputAt j).rst = false) →
    (∃ u, edges (n + 1) s = .next u ∧ RegistersAtReset u ∧ u.op = .load) ∧
    (∃ u, edges (n + 19) s = .next u ∧ u.done = true ∧ u.result = cordicFn s.params a)

/-- R205, R206: a RESET edge during a transaction discards it; without a new request nothing follows, no `done` pulse
and no result, however many edges pass. -/
def Obligations.ResetDiscardsTheTransaction : Prop :=
  ∀ (k : Nat) (s : State), s.pins.rst = true →
    (∀ j, 1 ≤ j → j ≤ k → (s.inputAt j).rst = true ∨ (s.inputAt j).start = false) →
    ∃ u, edges (k + 1) s = .next u ∧ RegistersAtReset u
end

