-- ==== Sys2Proof/Laws/Ops.lean ====
section
/-! SUPPORT. The arithmetic primitives in integers, the ROM read, the input pins, and the decode of a formed control
word: one lemma for each shared operation. -/

namespace Sys2Proof.Machine

/-! ### Arithmetic -/

theorem sint_ge (v : Word) : -2147483648 ≤ sint v := by
  have := BitVec.le_toInt v; simpa [sint] using this

theorem sint_lt (v : Word) : sint v < 2147483648 := by
  have := BitVec.toInt_lt (x := v); simpa [sint] using this

/-- `wrap32` undoes `sint`. -/
@[simp] theorem wrap32_sint (v : Word) : wrap32 (sint v) = v := BitVec.ofInt_toInt

/-- The signed reading determines the word. -/
theorem sint_inj {v w : Word} (h : sint v = sint w) : v = w := BitVec.eq_of_toInt_eq h

/-- `wrap32` changes no value inside the 32-bit range. -/
theorem sint_wrap32 {n : Int} (lo : -2147483648 ≤ n) (hi : n < 2147483648) : sint (wrap32 n) = n := by
  simp only [sint, wrap32, BitVec.toInt_ofInt]
  exact Int.bmod_eq_of_le (by omega) (by omega)

/-- `wrap32` in modular terms. -/
theorem wrap32_eq_iff (m n : Int) : wrap32 m = wrap32 n ↔ m % 4294967296 = n % 4294967296 := by
  have key : wrap32 m = wrap32 n ↔ m.bmod 4294967296 = n.bmod 4294967296 := by
    rw [← BitVec.toInt_inj]
    simp [wrap32, BitVec.toInt_ofInt]
  rw [key]
  simp only [Int.bmod_def]
  split <;> split <;> omega

/-- An arithmetic shift is a floor division. -/
theorem sint_asr (v : Word) (k : Nat) : sint (asr v k) = sint v / 2 ^ k := by
  simp [sint, asr, BitVec.toInt_sshiftRight, Int.shiftRight_eq_div_pow]

/-- The direction bit is the sign. -/
theorem directionPlus_iff (z : Word) : directionPlus z = true ↔ 0 ≤ sint z := by
  simp only [directionPlus, sint, Bool.not_eq_true']
  rw [BitVec.msb_eq_toInt]
  simp

/-! ### The input pins -/

/-- After an edge, the inputs are those of one edge later. -/
@[simp] theorem State.inputAt_afterEdge (s : State) (k : Nat) : s.afterEdge.inputAt k = s.inputAt (k + 1) := by
  cases h : s.stimulus with
  | nil => simp only [State.inputAt, State.afterEdge, h]; simp; congr 2; omega
  | cons v vs => simp only [State.inputAt, State.afterEdge, h]; simp

theorem State.pins_afterEdge (s : State) : s.afterEdge.pins = s.inputAt 1 := s.inputAt_afterEdge 0

/-- The inputs depend on the environment's fields alone. -/
theorem State.inputAt_congr {s t : State} (hs : t.stimulus = s.stimulus) (hu : t.undriven = s.undriven) (k : Nat) :
    t.inputAt k = s.inputAt k := by
  unfold State.inputAt; rw [hs, hu]

/-- A listed vector is the input of its edge. -/
theorem State.inputAt_of_lt (s : State) (k : Nat) (h : k < s.stimulus.length) : s.inputAt k = s.stimulus[k] := by
  simp [State.inputAt, h]

/-! ### The control word -/

@[simp] theorem ctlRst_makeCtl (r b : Bool) (q : SeqState) (n : Index) : ctlRst (makeCtl r b q n) = r := by
  cases r <;> cases b <;> cases q <;> revert n <;> decide

@[simp] theorem ctlStart_makeCtl (r b : Bool) (q : SeqState) (n : Index) : ctlStart (makeCtl r b q n) = b := by
  cases r <;> cases b <;> cases q <;> revert n <;> decide

@[simp] theorem ctlSt_makeCtl (r b : Bool) (q : SeqState) (n : Index) : ctlSt (makeCtl r b q n) = q := by
  cases r <;> cases b <;> cases q <;> revert n <;> decide

@[simp] theorem ctlCnt_makeCtl (r b : Bool) (q : SeqState) (n : Index) : ctlCnt (makeCtl r b q n) = n := by
  cases r <;> cases b <;> cases q <;> revert n <;> decide

/-- The fields determine the control word. -/
theorem makeCtl_fields (c : ControlWord) : makeCtl (ctlRst c) (ctlStart c) (ctlSt c) (ctlCnt c) = c := by
  revert c; decide

/-- What a formed control word decodes to (30_encoding.md R71). -/
theorem decode_makeCtl (r b : Bool) (q : SeqState) (n : Index) :
    decode (makeCtl r b q n) =
      if r then .reset
      else match q with
        | .idle => if b then .load else .idleHold
        | .rotate => .rotate n
        | .compose => .compose
        | .illegal => .illegalRecover := by
  cases r <;> cases q <;> simp [decode]

/-- What the coming edge performs, read off the pins and the sequencer position. -/
theorem State.decode_ctl (s : State) :
    decode s.ctl =
      if s.pins.rst then .reset
      else match s.st with
        | .idle => if s.pins.start then .load else .idleHold
        | .rotate => .rotate s.cnt
        | .compose => .compose
        | .illegal => .illegalRecover := decode_makeCtl ..

end Sys2Proof.Machine
end

