-- ==== Sys2Proof/Laws/PerInstr.lean ====
section
/-! SUPPORT. A fact about every instruction as syntax, one lemma per constructor. -/

namespace Sys2Proof.Laws

/-- The encoder's word matches its instruction's row of the opcode table, and no earlier row (30_encoding.md R71). -/
def EncodesItsRow.Statement (i : Instr) : Prop := tableMnemonic (encode i) = some i.mnemonic

theorem EncodesItsRow.reset : EncodesItsRow.Statement .reset := by unfold EncodesItsRow.Statement; decide
theorem EncodesItsRow.idleHold : EncodesItsRow.Statement .idleHold := by unfold EncodesItsRow.Statement; decide
theorem EncodesItsRow.load : EncodesItsRow.Statement .load := by unfold EncodesItsRow.Statement; decide
theorem EncodesItsRow.rotate (i : Index) : EncodesItsRow.Statement (.rotate i) := by
  unfold EncodesItsRow.Statement; revert i; decide
theorem EncodesItsRow.compose : EncodesItsRow.Statement .compose := by unfold EncodesItsRow.Statement; decide
theorem EncodesItsRow.illegalRecover : EncodesItsRow.Statement .illegalRecover := by unfold EncodesItsRow.Statement; decide

end Sys2Proof.Laws
end

