-- ==== Sys2Proof/Laws/State.lean ====
section
/-! SUPPORT. One lemma per field per named update of State, so that no proof unfolds an update; and the lemmas of
`afterEdge`, which touches the environment's fields only. -/

namespace Sys2Proof.Machine

variable (s : State)


@[simp] theorem State.setVector_x (v : Triple) : (s.setVector v).x = v.x := rfl
@[simp] theorem State.setVector_y (v : Triple) : (s.setVector v).y = v.y := rfl
@[simp] theorem State.setVector_z (v : Triple) : (s.setVector v).z = v.z := rfl
@[simp] theorem State.setVector_cneg (v : Triple) : (s.setVector v).cneg = s.cneg := rfl
@[simp] theorem State.setVector_derr (v : Triple) : (s.setVector v).derr = s.derr := rfl
@[simp] theorem State.setVector_st (v : Triple) : (s.setVector v).st = s.st := rfl
@[simp] theorem State.setVector_cnt (v : Triple) : (s.setVector v).cnt = s.cnt := rfl
@[simp] theorem State.setVector_cosOut (v : Triple) : (s.setVector v).cosOut = s.cosOut := rfl
@[simp] theorem State.setVector_sinOut (v : Triple) : (s.setVector v).sinOut = s.sinOut := rfl
@[simp] theorem State.setVector_domErr (v : Triple) : (s.setVector v).domErr = s.domErr := rfl
@[simp] theorem State.setVector_done (v : Triple) : (s.setVector v).done = s.done := rfl
@[simp] theorem State.setVector_params (v : Triple) : (s.setVector v).params = s.params := rfl
@[simp] theorem State.setVector_stimulus (v : Triple) : (s.setVector v).stimulus = s.stimulus := rfl
@[simp] theorem State.setVector_undriven (v : Triple) : (s.setVector v).undriven = s.undriven := rfl

@[simp] theorem State.setSeq_x (q : SeqState) (n : Index) : (s.setSeq q n).x = s.x := rfl
@[simp] theorem State.setSeq_y (q : SeqState) (n : Index) : (s.setSeq q n).y = s.y := rfl
@[simp] theorem State.setSeq_z (q : SeqState) (n : Index) : (s.setSeq q n).z = s.z := rfl
@[simp] theorem State.setSeq_cneg (q : SeqState) (n : Index) : (s.setSeq q n).cneg = s.cneg := rfl
@[simp] theorem State.setSeq_derr (q : SeqState) (n : Index) : (s.setSeq q n).derr = s.derr := rfl
@[simp] theorem State.setSeq_st (q : SeqState) (n : Index) : (s.setSeq q n).st = q := rfl
@[simp] theorem State.setSeq_cnt (q : SeqState) (n : Index) : (s.setSeq q n).cnt = n := rfl
@[simp] theorem State.setSeq_cosOut (q : SeqState) (n : Index) : (s.setSeq q n).cosOut = s.cosOut := rfl
@[simp] theorem State.setSeq_sinOut (q : SeqState) (n : Index) : (s.setSeq q n).sinOut = s.sinOut := rfl
@[simp] theorem State.setSeq_domErr (q : SeqState) (n : Index) : (s.setSeq q n).domErr = s.domErr := rfl
@[simp] theorem State.setSeq_done (q : SeqState) (n : Index) : (s.setSeq q n).done = s.done := rfl
@[simp] theorem State.setSeq_params (q : SeqState) (n : Index) : (s.setSeq q n).params = s.params := rfl
@[simp] theorem State.setSeq_stimulus (q : SeqState) (n : Index) : (s.setSeq q n).stimulus = s.stimulus := rfl
@[simp] theorem State.setSeq_undriven (q : SeqState) (n : Index) : (s.setSeq q n).undriven = s.undriven := rfl

@[simp] theorem State.setSigns_x (b d : Bool) : (s.setSigns b d).x = s.x := rfl
@[simp] theorem State.setSigns_y (b d : Bool) : (s.setSigns b d).y = s.y := rfl
@[simp] theorem State.setSigns_z (b d : Bool) : (s.setSigns b d).z = s.z := rfl
@[simp] theorem State.setSigns_cneg (b d : Bool) : (s.setSigns b d).cneg = b := rfl
@[simp] theorem State.setSigns_derr (b d : Bool) : (s.setSigns b d).derr = d := rfl
@[simp] theorem State.setSigns_st (b d : Bool) : (s.setSigns b d).st = s.st := rfl
@[simp] theorem State.setSigns_cnt (b d : Bool) : (s.setSigns b d).cnt = s.cnt := rfl
@[simp] theorem State.setSigns_cosOut (b d : Bool) : (s.setSigns b d).cosOut = s.cosOut := rfl
@[simp] theorem State.setSigns_sinOut (b d : Bool) : (s.setSigns b d).sinOut = s.sinOut := rfl
@[simp] theorem State.setSigns_domErr (b d : Bool) : (s.setSigns b d).domErr = s.domErr := rfl
@[simp] theorem State.setSigns_done (b d : Bool) : (s.setSigns b d).done = s.done := rfl
@[simp] theorem State.setSigns_params (b d : Bool) : (s.setSigns b d).params = s.params := rfl
@[simp] theorem State.setSigns_stimulus (b d : Bool) : (s.setSigns b d).stimulus = s.stimulus := rfl
@[simp] theorem State.setSigns_undriven (b d : Bool) : (s.setSigns b d).undriven = s.undriven := rfl

@[simp] theorem State.publish_x (r : Result) : (s.publish r).x = s.x := rfl
@[simp] theorem State.publish_y (r : Result) : (s.publish r).y = s.y := rfl
@[simp] theorem State.publish_z (r : Result) : (s.publish r).z = s.z := rfl
@[simp] theorem State.publish_cneg (r : Result) : (s.publish r).cneg = s.cneg := rfl
@[simp] theorem State.publish_derr (r : Result) : (s.publish r).derr = s.derr := rfl
@[simp] theorem State.publish_st (r : Result) : (s.publish r).st = s.st := rfl
@[simp] theorem State.publish_cnt (r : Result) : (s.publish r).cnt = s.cnt := rfl
@[simp] theorem State.publish_cosOut (r : Result) : (s.publish r).cosOut = r.cos := rfl
@[simp] theorem State.publish_sinOut (r : Result) : (s.publish r).sinOut = r.sin := rfl
@[simp] theorem State.publish_domErr (r : Result) : (s.publish r).domErr = r.err := rfl
@[simp] theorem State.publish_done (r : Result) : (s.publish r).done = s.done := rfl
@[simp] theorem State.publish_params (r : Result) : (s.publish r).params = s.params := rfl
@[simp] theorem State.publish_stimulus (r : Result) : (s.publish r).stimulus = s.stimulus := rfl
@[simp] theorem State.publish_undriven (r : Result) : (s.publish r).undriven = s.undriven := rfl

@[simp] theorem State.setDone_x (b : Bool) : (s.setDone b).x = s.x := rfl
@[simp] theorem State.setDone_y (b : Bool) : (s.setDone b).y = s.y := rfl
@[simp] theorem State.setDone_z (b : Bool) : (s.setDone b).z = s.z := rfl
@[simp] theorem State.setDone_cneg (b : Bool) : (s.setDone b).cneg = s.cneg := rfl
@[simp] theorem State.setDone_derr (b : Bool) : (s.setDone b).derr = s.derr := rfl
@[simp] theorem State.setDone_st (b : Bool) : (s.setDone b).st = s.st := rfl
@[simp] theorem State.setDone_cnt (b : Bool) : (s.setDone b).cnt = s.cnt := rfl
@[simp] theorem State.setDone_cosOut (b : Bool) : (s.setDone b).cosOut = s.cosOut := rfl
@[simp] theorem State.setDone_sinOut (b : Bool) : (s.setDone b).sinOut = s.sinOut := rfl
@[simp] theorem State.setDone_domErr (b : Bool) : (s.setDone b).domErr = s.domErr := rfl
@[simp] theorem State.setDone_done (b : Bool) : (s.setDone b).done = b := rfl
@[simp] theorem State.setDone_params (b : Bool) : (s.setDone b).params = s.params := rfl
@[simp] theorem State.setDone_stimulus (b : Bool) : (s.setDone b).stimulus = s.stimulus := rfl
@[simp] theorem State.setDone_undriven (b : Bool) : (s.setDone b).undriven = s.undriven := rfl

@[simp] theorem State.clearRegisters_x : (s.clearRegisters).x = 0#32 := rfl
@[simp] theorem State.clearRegisters_y : (s.clearRegisters).y = 0#32 := rfl
@[simp] theorem State.clearRegisters_z : (s.clearRegisters).z = 0#32 := rfl
@[simp] theorem State.clearRegisters_cneg : (s.clearRegisters).cneg = false := rfl
@[simp] theorem State.clearRegisters_derr : (s.clearRegisters).derr = false := rfl
@[simp] theorem State.clearRegisters_st : (s.clearRegisters).st = .idle := rfl
@[simp] theorem State.clearRegisters_cnt : (s.clearRegisters).cnt = 0#4 := rfl
@[simp] theorem State.clearRegisters_cosOut : (s.clearRegisters).cosOut = 0#32 := rfl
@[simp] theorem State.clearRegisters_sinOut : (s.clearRegisters).sinOut = 0#32 := rfl
@[simp] theorem State.clearRegisters_domErr : (s.clearRegisters).domErr = false := rfl
@[simp] theorem State.clearRegisters_done : (s.clearRegisters).done = false := rfl
@[simp] theorem State.clearRegisters_params : (s.clearRegisters).params = s.params := rfl
@[simp] theorem State.clearRegisters_stimulus : (s.clearRegisters).stimulus = s.stimulus := rfl
@[simp] theorem State.clearRegisters_undriven : (s.clearRegisters).undriven = s.undriven := rfl

@[simp] theorem State.drive_x (vs : List InputVector) : (s.drive vs).x = s.x := rfl
@[simp] theorem State.drive_y (vs : List InputVector) : (s.drive vs).y = s.y := rfl
@[simp] theorem State.drive_z (vs : List InputVector) : (s.drive vs).z = s.z := rfl
@[simp] theorem State.drive_cneg (vs : List InputVector) : (s.drive vs).cneg = s.cneg := rfl
@[simp] theorem State.drive_derr (vs : List InputVector) : (s.drive vs).derr = s.derr := rfl
@[simp] theorem State.drive_st (vs : List InputVector) : (s.drive vs).st = s.st := rfl
@[simp] theorem State.drive_cnt (vs : List InputVector) : (s.drive vs).cnt = s.cnt := rfl
@[simp] theorem State.drive_cosOut (vs : List InputVector) : (s.drive vs).cosOut = s.cosOut := rfl
@[simp] theorem State.drive_sinOut (vs : List InputVector) : (s.drive vs).sinOut = s.sinOut := rfl
@[simp] theorem State.drive_domErr (vs : List InputVector) : (s.drive vs).domErr = s.domErr := rfl
@[simp] theorem State.drive_done (vs : List InputVector) : (s.drive vs).done = s.done := rfl
@[simp] theorem State.drive_params (vs : List InputVector) : (s.drive vs).params = s.params := rfl
@[simp] theorem State.drive_stimulus (vs : List InputVector) : (s.drive vs).stimulus = s.stimulus ++ vs := rfl
@[simp] theorem State.drive_undriven (vs : List InputVector) : (s.drive vs).undriven = s.undriven := rfl

@[simp] theorem State.afterEdge_x : s.afterEdge.x = s.x := by unfold State.afterEdge; split <;> rfl
@[simp] theorem State.afterEdge_y : s.afterEdge.y = s.y := by unfold State.afterEdge; split <;> rfl
@[simp] theorem State.afterEdge_z : s.afterEdge.z = s.z := by unfold State.afterEdge; split <;> rfl
@[simp] theorem State.afterEdge_cneg : s.afterEdge.cneg = s.cneg := by unfold State.afterEdge; split <;> rfl
@[simp] theorem State.afterEdge_derr : s.afterEdge.derr = s.derr := by unfold State.afterEdge; split <;> rfl
@[simp] theorem State.afterEdge_st : s.afterEdge.st = s.st := by unfold State.afterEdge; split <;> rfl
@[simp] theorem State.afterEdge_cnt : s.afterEdge.cnt = s.cnt := by unfold State.afterEdge; split <;> rfl
@[simp] theorem State.afterEdge_cosOut : s.afterEdge.cosOut = s.cosOut := by unfold State.afterEdge; split <;> rfl
@[simp] theorem State.afterEdge_sinOut : s.afterEdge.sinOut = s.sinOut := by unfold State.afterEdge; split <;> rfl
@[simp] theorem State.afterEdge_domErr : s.afterEdge.domErr = s.domErr := by unfold State.afterEdge; split <;> rfl
@[simp] theorem State.afterEdge_done : s.afterEdge.done = s.done := by unfold State.afterEdge; split <;> rfl
@[simp] theorem State.afterEdge_params : s.afterEdge.params = s.params := by unfold State.afterEdge; split <;> rfl

/-- An edge drops the vector it consumed. -/
@[simp] theorem State.afterEdge_stimulus : s.afterEdge.stimulus = s.stimulus.tail := by
  unfold State.afterEdge; split <;> simp_all

/-- An edge with no driven vector numbers the next free one. -/
theorem State.afterEdge_undriven :
    s.afterEdge.undriven = if s.stimulus = [] then s.undriven + 1 else s.undriven := by
  unfold State.afterEdge; split <;> simp_all

@[simp] theorem State.setVector_vector (v : Triple) : (s.setVector v).vector = v := rfl
@[simp] theorem State.setSeq_vector (q : SeqState) (n : Index) : (s.setSeq q n).vector = s.vector := rfl
@[simp] theorem State.setSigns_vector (b d : Bool) : (s.setSigns b d).vector = s.vector := rfl
@[simp] theorem State.publish_vector (r : Result) : (s.publish r).vector = s.vector := rfl
@[simp] theorem State.setDone_vector (b : Bool) : (s.setDone b).vector = s.vector := rfl
@[simp] theorem State.afterEdge_vector : s.afterEdge.vector = s.vector := by simp [State.vector]

@[simp] theorem State.setVector_result (v : Triple) : (s.setVector v).result = s.result := rfl
@[simp] theorem State.setSeq_result (q : SeqState) (n : Index) : (s.setSeq q n).result = s.result := rfl
@[simp] theorem State.setSigns_result (b d : Bool) : (s.setSigns b d).result = s.result := rfl
@[simp] theorem State.publish_result (r : Result) : (s.publish r).result = r := rfl
@[simp] theorem State.setDone_result (b : Bool) : (s.setDone b).result = s.result := rfl
@[simp] theorem State.afterEdge_result : s.afterEdge.result = s.result := by simp [State.result]

end Sys2Proof.Machine
end

