-- ==== Sys2Proof/Laws/Step.lean ====
section
/-! SUPPORT. What one edge does, said once: by the pins and the sequencer position, and as an inversion; and runs of
several edges. -/

namespace Sys2Proof.Machine

/-- The state each micro-operation leaves, as plain updates. -/
theorem exec_next (i : Instr) (s : State) :
    exec i s = .next (match i with
      | .reset => s.clearRegisters
      | .idleHold => s.setDone false
      | .load => (((s.setVector (startVector s.params (reduce s.params s.pins.angleIn).angle)).setSigns
          (reduce s.params s.pins.angleIn).neg (domainErr s.params s.pins.angleIn)).setSeq .rotate 0#4).setDone false
      | .rotate n => ((s.setVector (iter s.params n s.vector)).setSeq (stAfterRotate n) (cntAfterRotate n)).setDone false
      | .compose => ((s.publish ⟨composeCos s.cneg s.x, s.y, s.derr⟩).setDone true).setSeq .idle 0#4
      | .illegalRecover => (s.setSeq .idle 0#4).setDone false) := by
  cases i <;> rfl

/-- A step is `exec` of the decoded micro-operation, and then the edge has passed. -/
theorem step_of_exec {s t : State} (h : exec (decode s.ctl) s = .next t) : step s = .next t.afterEdge := by
  simp [step, h]

theorem step_reset {s : State} (h : s.pins.rst = true) : step s = .next s.clearRegisters.afterEdge :=
  step_of_exec (by rw [s.decode_ctl, if_pos h]; rfl)

theorem step_idleHold {s : State} (h : s.pins.rst = false) (hq : s.st = .idle) (hb : s.pins.start = false) :
    step s = .next (s.setDone false).afterEdge :=
  step_of_exec (by rw [s.decode_ctl, hq]; simp [h, hb, exec_next])

theorem step_load {s : State} (h : s.pins.rst = false) (hq : s.st = .idle) (hb : s.pins.start = true) :
    step s = .next ((((s.setVector (startVector s.params (reduce s.params s.pins.angleIn).angle)).setSigns
      (reduce s.params s.pins.angleIn).neg (domainErr s.params s.pins.angleIn)).setSeq .rotate 0#4).setDone
        false).afterEdge :=
  step_of_exec (by rw [s.decode_ctl, hq]; simp [h, hb, exec_next])

theorem step_rotate {s : State} (h : s.pins.rst = false) (hq : s.st = .rotate) :
    step s = .next (((s.setVector (iter s.params s.cnt s.vector)).setSeq (stAfterRotate s.cnt)
      (cntAfterRotate s.cnt)).setDone false).afterEdge :=
  step_of_exec (by rw [s.decode_ctl, hq]; simp [h, exec_next])

theorem step_compose {s : State} (h : s.pins.rst = false) (hq : s.st = .compose) :
    step s = .next (((s.publish ⟨composeCos s.cneg s.x, s.y, s.derr⟩).setDone true).setSeq .idle 0#4).afterEdge :=
  step_of_exec (by rw [s.decode_ctl, hq]; simp [h, exec_next])

theorem step_illegal {s : State} (h : s.pins.rst = false) (hq : s.st = .illegal) :
    step s = .next ((s.setSeq .idle 0#4).setDone false).afterEdge :=
  step_of_exec (by rw [s.decode_ctl, hq]; simp [h, exec_next])

/-- Everything a step can do: one of the six micro-operations, under the condition that selects it. -/
theorem step_cases {s u : State} (h : step s = .next u) :
    (s.pins.rst = true ∧ u = s.clearRegisters.afterEdge) ∨
    (s.pins.rst = false ∧ s.st = .idle ∧ s.pins.start = false ∧ u = (s.setDone false).afterEdge) ∨
    (s.pins.rst = false ∧ s.st = .idle ∧ s.pins.start = true ∧
      u = ((((s.setVector (startVector s.params (reduce s.params s.pins.angleIn).angle)).setSigns
        (reduce s.params s.pins.angleIn).neg (domainErr s.params s.pins.angleIn)).setSeq .rotate 0#4).setDone
          false).afterEdge) ∨
    (s.pins.rst = false ∧ s.st = .rotate ∧
      u = (((s.setVector (iter s.params s.cnt s.vector)).setSeq (stAfterRotate s.cnt)
        (cntAfterRotate s.cnt)).setDone false).afterEdge) ∨
    (s.pins.rst = false ∧ s.st = .compose ∧
      u = (((s.publish ⟨composeCos s.cneg s.x, s.y, s.derr⟩).setDone true).setSeq .idle 0#4).afterEdge) ∨
    (s.pins.rst = false ∧ s.st = .illegal ∧ u = ((s.setSeq .idle 0#4).setDone false).afterEdge) := by
  have inj {a b : State} (e : step s = .next a) (e' : step s = .next b) : b = a := by
    rw [e] at e'; injection e' with e'; exact e'.symm
  rcases hr : s.pins.rst with _ | _
  · rcases hq : s.st with _ | _ | _ | _
    · rcases hb : s.pins.start with _ | _
      · exact .inr (.inl ⟨rfl, rfl, rfl, inj (step_idleHold hr hq hb) h⟩)
      · exact .inr (.inr (.inl ⟨rfl, rfl, rfl, inj (step_load hr hq hb) h⟩))
    · exact .inr (.inr (.inr (.inl ⟨rfl, rfl, inj (step_rotate hr hq) h⟩)))
    · exact .inr (.inr (.inr (.inr (.inl ⟨rfl, rfl, inj (step_compose hr hq) h⟩))))
    · exact .inr (.inr (.inr (.inr (.inr ⟨rfl, rfl, inj (step_illegal hr hq) h⟩))))
  · exact .inl ⟨rfl, inj (step_reset hr) h⟩

/-- The inputs of the edges after a step. -/
theorem step_inputAt {s u : State} (h : step s = .next u) (k : Nat) : u.inputAt k = s.inputAt (k + 1) := by
  rcases step_cases h with ⟨-, rfl⟩ | ⟨-, -, -, rfl⟩ | ⟨-, -, -, rfl⟩ | ⟨-, -, rfl⟩ | ⟨-, -, rfl⟩ | ⟨-, -, rfl⟩ <;>
    rw [State.inputAt_afterEdge] <;> exact State.inputAt_congr rfl rfl _

/-! ### Runs -/

@[simp] theorem edges_zero (s : State) : edges 0 s = .next s := rfl

theorem edges_succ {s t : State} (h : step s = .next t) (k : Nat) : edges (k + 1) s = edges k t := by
  simp [edges, h]

/-- Runs compose. -/
theorem edges_add {s t : State} {k : Nat} (h : edges k s = .next t) (n : Nat) : edges (k + n) s = edges n t := by
  induction k generalizing s with
  | zero => injection h with h; simp [h]
  | succ k ih =>
    cases hs : step s with
    | next u =>
      rw [edges_succ hs] at h
      rw [Nat.add_right_comm, edges_succ hs, ih h]
    | fault r => cases r
    | refused r => simp [edges, hs] at h

/-- `edges` is the host's run of the machine. -/
theorem edges_eq_run (k : Nat) (s : State) : edges k s = Host.Core.run Sys2Proof.core k s := by
  induction k generalizing s with
  | zero => rfl
  | succ k ih =>
    cases h : step s with
    | next t =>
      have h' : Sys2Proof.core.step s = .next t := h
      simp only [edges, h, Host.Core.run, h']; exact ih t
    | fault r => cases r
    | refused r =>
      have h' : Sys2Proof.core.step s = .refused r := h
      simp only [edges, h, Host.Core.run, h']; rfl

end Sys2Proof.Machine
end

