-- ==== Sys2Proof/Laws/Transaction.lean ====
section
/-! SUPPORT. The datapath functions in integers, the iterates, and the bookkeeping of runs: the lemmas proofs about
transactions cite instead of unfolding. -/

namespace Sys2Proof.Machine

/-! ### The datapath -/

/-- One iteration in integers: the direction is the sign of `z`, the shifts are floor divisions (R106, R161, R164). -/
theorem iter_eq (p : Params) (i : Index) (v : Triple) :
    iter p i v =
      let d : Int := if 0 ≤ sint v.z then 1 else -1
      ⟨wrap32 (sint v.x - d * (sint v.y / 2 ^ i.toNat)), wrap32 (sint v.y + d * (sint v.x / 2 ^ i.toNat)),
       wrap32 (sint v.z - d * sint (memRead p i))⟩ := by
  by_cases h : 0 ≤ sint v.z
  · have h' := (directionPlus_iff v.z).2 h
    simp [iter, h, h', shiftedX, shiftedY, sint_asr, shiftAmount]
  · have h' : directionPlus v.z = false := by
      rw [← Bool.not_eq_true]; exact fun e => h ((directionPlus_iff v.z).1 e)
    simp [iter, h, h', shiftedX, shiftedY, sint_asr, shiftAmount, ← sub_eq_add_neg]

/-- The negation of the composer is two's-complement negation. -/
theorem wrap32_zero_sub (x : Word) : wrap32 (0 - sint x) = -x := by
  simp [wrap32, sint, BitVec.ofInt_neg, BitVec.ofInt_toInt]

@[simp] theorem composeCos_false (x : Word) : composeCos false x = x := rfl
@[simp] theorem composeCos_true (x : Word) : composeCos true x = -x := wrap32_zero_sub x

/-- The domain check as a proposition (R126). -/
theorem domainErr_iff (p : Params) (a : Word) :
    domainErr p a = true ↔ sint a < -sint p.twoPiQ ∨ sint a > sint p.twoPiQ := by
  simp [domainErr]

@[simp] theorem iterates_zero (p : Params) (r : Word) : iterates p r 0 = startVector p r := rfl

theorem iterates_succ (p : Params) (r : Word) (k : Nat) :
    iterates p r (k + 1) = iter p (BitVec.ofNat 4 k) (iterates p r k) := rfl

theorem engine_eq (p : Params) (r : Word) : engine p r = iterates p r 16 := rfl

/-! ### Runs -/

/-- A run and one more edge. -/
theorem edges_snoc {s t u : State} {k : Nat} (h : edges k s = .next t) (h' : step t = .next u) :
    edges (k + 1) s = .next u := by
  rw [edges_add h, edges_succ h']; rfl

/-- The micro-operation of an edge, and the state it leaves before the edge has passed. -/
theorem step_exec_op (s : State) : ∃ t, exec s.op s = .next t ∧ step s = .next t.afterEdge :=
  ⟨_, exec_next _ _, step_of_exec (exec_next _ _)⟩

/-- The inputs after a run are the later inputs of its start. -/
theorem edges_inputAt {k : Nat} : ∀ {s t : State}, edges k s = .next t → ∀ j, t.inputAt j = s.inputAt (k + j) := by
  induction k with
  | zero => intro s t h j; injection h with h; subst h; simp
  | succ k ih =>
    intro s t h j
    obtain ⟨u, -, hu⟩ := step_exec_op s
    rw [edges_succ hu] at h
    rw [ih h, step_inputAt hu]; congr 1; omega

/-- A drive sequence is the input of its edges, when nothing was listed before. -/
theorem inputAt_drive {s : State} (h : s.stimulus = []) (vs : List InputVector) (k : Nat) (hk : k < vs.length) :
    (s.drive vs).inputAt k = vs[k] := by
  rw [State.inputAt_of_lt _ _ (by simpa [h] using hk)]
  simp [h]

end Sys2Proof.Machine
end

