-- ==== Sys2Proof/Tests/Slice0.lean ====
section
/-! SUPPORT. Tests. Expected words come from the spec: 95_test_vectors.md, the examples of the rules, and the bit
patterns of 30_encoding.md R71. The witnesses at the end show that each statement's hypotheses can be met. -/

namespace Sys2Proof.Tests

open Sys2Proof Sys2Proof.Machine

/-! ### Well-formedness: one ill-formed term for each check, and the bounds -/

theorem test_wf_hex_too_long : (Literal.hex (2 ^ 32)).wellFormed = false := by decide
theorem test_wf_dec_too_large : (Literal.dec (2 ^ 31)).wellFormed = false := by decide
theorem test_wf_dec_too_small : (Literal.dec (-2 ^ 31 - 1)).wellFormed = false := by decide
theorem test_wf_start : (Line.start (.hex (2 ^ 32))).wellFormed = false := by decide
theorem test_wf_poke : (Line.poke (.dec (2 ^ 31))).wellFormed = false := by decide
theorem test_wf_run : (Line.run (.dec (-2 ^ 31 - 1))).wellFormed = false := by decide
theorem test_wf_bounds : (Literal.hex (2 ^ 32 - 1)).wellFormed = true ∧ (Literal.dec (2 ^ 31 - 1)).wellFormed = true ∧
    (Literal.dec (-2 ^ 31)).wellFormed = true := by decide

/-! ### Encoding (30_encoding.md R71; the control words of 95_test_vectors.md) -/

theorem test_decode_reset : decodeTableWord 8 0xD9 = some .reset := by decide
theorem test_decode_idleHold : decodeTableWord 8 0x09 = some .idleHold := by decide
theorem test_decode_load : decodeTableWord 8 0x40 = some .load := by decide
theorem test_decode_rotate : decodeTableWord 8 0x51 = some (.rotate 1) := by decide
theorem test_decode_compose : decodeTableWord 8 0x60 = some .compose := by decide
theorem test_decode_illegalRecover : decodeTableWord 8 0x77 = some .illegalRecover := by decide
theorem test_decode_no_byte : decodeTableWord 0 0 = none := by decide
theorem test_decode_two_bytes : decodeTableWord 16 0x40 = none := by decide
/-- The example of R77: `START 0x3243F6A9` = `{0, 1, 0x3243F6A9}`. -/
theorem test_vector_bits : (startLine 0x3243F6A9#32).toBits = 0x13243F6A9#34 := by decide

/-! ### Each micro-operation, on one edge -/

/-- A state at a sequencer position with one vector driven. -/
def atEdge (st : SeqState) (cnt : Index) (v : InputVector) : State :=
  { State.reset with st := st, cnt := cnt, stimulus := [v] }

/-- What a step leaves, seen through a function. -/
def after {α : Type} (f : State → α) (s : State) : Option α :=
  match step s with
  | .next t => some (f t)
  | .fault _ => none
  | .refused _ => none

/-- Section 2.7, "reset while rotating". -/
theorem test_reset : after (fun t => (t.x, t.cosOut, t.st, t.cnt))
    { atEdge .rotate 9 ⟨true, true, 5#32⟩ with x := 1#32, cosOut := 0x11111111#32 } =
      some (0#32, 0#32, .idle, 0#4) := by decide
/-- Section 2.7, "idle, stale cnt": `cnt = 9` is kept. -/
theorem test_idleHold_keeps_cnt : after (fun t => (t.cnt, t.cosOut, t.done))
    { atEdge .idle 9 nopVector with cosOut := 0x11111111#32, done := true } =
      some (9#4, 0x11111111#32, false) := by decide
/-- Section 2.1, 0xD0000000 (-3.0): path 1, 3. -/
theorem test_load : after (fun t => (t.x, t.y, t.z, t.cneg, t.derr, t.st)) (atEdge .idle 0 (startLine 0xD0000000#32)) =
    some (0x09B74EDB#32, 0#32, 0xFDBC0958#32, true, false, .rotate) := by decide
/-- Section 2.1, 0x90000000 (-7.0): out of the domain, computed all the same. -/
theorem test_load_out_of_domain : after (fun t => (t.z, t.cneg, t.derr))
    (atEdge .idle 0 (startLine 0x90000000#32)) = some (0xF487ED51#32, false, true) := by decide
/-- Section 2.2, "negative x and y, z = min". -/
theorem test_rotate_negative : after (fun t => (t.vector, t.st, t.cnt))
    { atEdge .rotate 2 nopVector with x := 0xF0000000#32, y := 0xF0000000#32, z := 0x80000000#32 } =
      some (⟨0xEC000000#32, 0xF4000000#32, 0x83EB6EBF#32⟩, .rotate, 3#4) := by decide
/-- Section 2.2, "last step, to COMPOSE", with a request that is ignored. -/
theorem test_rotate_last : after (fun t => (t.vector, t.st, t.cnt))
    { atEdge .rotate 15 (startLine 7#32) with x := 0x0FFFFFFF#32, y := 0x00000D8E#32, z := 0xFFFFF273#32 } =
      some (⟨0x0FFFFFFF#32, 0xFFFFED8F#32, 0x00001273#32⟩, .compose, 0#4) := by decide
/-- Section 2.6, "negate". -/
theorem test_compose : after (fun t => (t.result, t.done, t.st))
    { atEdge .compose 0 nopVector with x := 0x0FFFFFFF#32, y := 0xFFFFED8F#32, cneg := true } =
      some (⟨0xF0000001#32, 0xFFFFED8F#32, false⟩, true, .idle) := by decide
/-- Section 2.6, "negate min". -/
theorem test_compose_min : after (fun t => t.result)
    { atEdge .compose 0 nopVector with x := 0x80000000#32, y := 5#32, cneg := true, derr := true } =
      some ⟨0x80000000#32, 5#32, true⟩ := by decide
/-- Section 2.7, "illegal state": no LOAD. -/
theorem test_illegalRecover : after (fun t => (t.st, t.cnt, t.x, t.done))
    { atEdge .illegal 7 (startLine 5#32) with x := 1#32 } = some (.idle, 0#4, 1#32, false) := by decide

/-! ### The transaction as a function (section 2.5) -/

theorem test_fn_zero : cordicFn defaultParams 0x00000000#32 = ⟨0x0FFFFFFF#32, 0xFFFFED8F#32, false⟩ := by
  decide +kernel
theorem test_fn_five : cordicFn defaultParams 0x50000000#32 = ⟨0x0489E55B#32, 0xF0A84032#32, false⟩ := by
  decide +kernel
theorem test_fn_min : cordicFn defaultParams 0x80000000#32 = ⟨0xFDABFA19#32, 0xF02B98C3#32, true⟩ := by
  decide +kernel

/-! ### The stimulus notation (R77 to R79) -/

/-- Program P2 of section 4. -/
theorem test_read_program :
    readProgram ("RESET\nSTART 0x3243F6A9    ; PI_Q\nPOKE 0x12345678     ; angle_in changes, no effect\n" ++
      "START 0x10000000    ; request while busy: ignored\nWAIT 15\nNOP\n").toList =
    some [.reset, .start (.hex 0x3243F6A9), .poke (.hex 0x12345678), .start (.hex 0x10000000), .wait 15, .nop] := by
  decide +kernel
theorem test_read_refuses_range : readProgram "START 2147483648".toList = none := by decide
/-- The model's choices of log 9: leading zeros and minus zero are read, and the `n` of WAIT has no `0x` form and no
sign. -/
theorem test_read_choices : readProgram "START 007\nPOKE -0\nWAIT 03".toList =
      some [.start (.dec 7), .poke (.dec 0), .wait 3] ∧
    readProgram "WAIT 0x00000003".toList = none ∧ readProgram "WAIT -0".toList = none := by decide +kernel
theorem test_print_instr : printInstr (.rotate 15) = "ROTATE 15" := by decide
theorem test_print_ctl : printCtl 0x5F#8 = "0x5F" := by decide

/-! ### Witnesses: the hypotheses of the statements can be met -/

/-- A block in IDLE that is asked for π, is given no reset, and is asked again at the 18th edge after. -/
def requested : State :=
  State.reset.drive (startLine 0x3243F6A9#32 :: List.replicate 17 nopVector ++ [startLine 0x10000000#32])

theorem requested_accepts : Accepts requested 0x3243F6A9#32 := ⟨by decide, by decide, by decide, by decide⟩
theorem requested_noReset : NoReset 18 requested := by unfold NoReset; decide

theorem witness_ResetClearsEveryRegister : (atEdge .rotate 9 ⟨true, true, 5#32⟩).pins.rst = true := by decide

theorem witness_IllegalRecoverReturnsToIdle :
    (atEdge .illegal 7 (startLine 5#32)).st = .illegal ∧ (atEdge .illegal 7 (startLine 5#32)).pins.rst = false := by
  decide

theorem witness_DecoderFollowsTheOpcodeTable : decode 0x10#8 = .rotate 0 ∧ decode 0x5F#8 = .rotate 15 := by decide

theorem witness_DecodeUndoesEncode : (Instr.rotate 15).wellFormed = true := by decide

theorem witness_PlacedWordRunsAtTheNextEdge : 0 < 256 ∧ 255 < 256 := by decide

theorem witness_IgnoredBitsAreIgnored :
    (atEdge .rotate 3 nopVector).st ≠ .idle ∧ (atEdge .compose 0 nopVector).st ≠ .idle ∧
    (atEdge .illegal 7 nopVector).st ≠ .idle ∧ SeqState.idle ≠ .rotate ∧ SeqState.illegal ≠ .rotate := by decide

theorem witness_InputVectorsEncodeAndDecode :
    (Literal.hex (2 ^ 32 - 1)).wellFormed = true ∧ (Literal.dec (-2 ^ 31)).wellFormed = true := by decide

theorem witness_StimulusTextReadsBack :
    ∀ l ∈ [Line.reset, .start (.hex (2 ^ 32 - 1)), .poke (.dec (-2 ^ 31)), .wait 0, .run (.dec (2 ^ 31 - 1))],
      l.wellFormed = true := by decide

theorem witness_StepPerformsTheDecodedMicroOperation :
    decode (atEdge .idle 0 (startLine 5#32)).ctl = .load ∧ decode (atEdge .rotate 15 nopVector).ctl = .rotate 15 := by
  decide

theorem witness_DoneMarksTheCycleAfterCompose :
    ∃ u w, step { atEdge .compose 0 nopVector with stimulus := [nopVector, nopVector] } = .next u ∧ u.done = true ∧
      step u = .next w := ⟨_, _, rfl, rfl, rfl⟩

theorem witness_OnlyTheNamedWritersWrite :
    (∃ u, step (atEdge .idle 0 (startLine 0x3243F6A9#32)) = .next u ∧
      u.x ≠ State.reset.x ∧ u.cneg ≠ State.reset.cneg) ∧
    (∃ u, step { atEdge .compose 0 nopVector with x := 1#32 } = .next u ∧ u.result ≠ State.reset.result ∧
      u.st ≠ (atEdge .compose 0 nopVector).st ∧ u.done ≠ (atEdge .compose 0 nopVector).done) ∧
    ∃ u, step (atEdge .rotate 14 nopVector) = .next u ∧ u.cnt ≠ (atEdge .rotate 14 nopVector).cnt :=
  ⟨⟨_, rfl, by decide, by decide⟩, ⟨_, rfl, by decide, by decide, by decide⟩, ⟨_, rfl, by decide⟩⟩

theorem witness_AngleMattersOnlyAtLoad :
    ({ State.reset with stimulus := nopVector :: [] } : State).op ≠ .load ∧
    ({ State.reset with st := .rotate, stimulus := startLine 5#32 :: [] } : State).op ≠ .load := by decide

theorem witness_IdleHoldsEveryRegisterButDone :
    (State.reset.drive [nopVector, nopVector]).st = .idle ∧
    ∀ j < 2, ((State.reset.drive [nopVector, nopVector]).inputAt j).rst = false ∧
      ((State.reset.drive [nopVector, nopVector]).inputAt j).start = false := by decide

theorem witness_DefaultRomWordsAndProperties :
    (0#4).toNat < 15 ∧ (14#4).toNat < 15 ∧ 10 ≤ (10#4).toNat ∧ (14#4).toNat ≤ 14 := by decide

/-- One input for each clause of the ranges, at the bound where it begins. -/
theorem witness_ReduceStaysInItsRanges :
    (0xE6DE04AB#32).toInt < -421657428 ∧
    ((0x4B65F1FE#32).toInt ≥ -421657428 ∧ (0x4B65F1FE#32).toInt > 1264972285) ∧
    ((0x4B65F1FD#32).toInt ≤ 1264972285 ∧ (0x4B65F1FD#32).toInt > 421657428) ∧
    ((0x1921FB55#32).toInt ≤ 1264972285 ∧ (0x1921FB55#32).toInt > 421657428) ∧
    domainErr defaultParams 0x9B7812AF#32 = false ∧ domainErr defaultParams 0x6487ED51#32 = false := by decide

theorem witness_RemainingAngleNeverWraps : 16 ≤ 16 ∧ 15 < 16 := by decide

theorem witness_VectorNeverWraps : 16 ≤ 16 ∧ 15 < 16 := by decide

theorem witness_ResidualAngleIsAtMostTheLastWord :
    |sint 467959939#32| ≤ 467951747 + 8192 ∧ |sint (BitVec.ofInt 32 (-467959939))| ≤ 467951747 + 8192 := by decide

theorem witness_TransactionSchedule :
    Accepts requested 0x3243F6A9#32 ∧ NoReset 18 requested ∧
    (requested.inputAt 18).rst = false ∧ (requested.inputAt 18).start = true :=
  ⟨requested_accepts, requested_noReset, by decide, by decide⟩

theorem witness_TransactionComputesCordicFn :
    requested.st = .idle ∧ (requested.inputAt 0).start = true ∧ (requested.inputAt 0).angleIn = 0x3243F6A9#32 ∧
    NoReset 18 requested := ⟨by decide, by decide, by decide, requested_noReset⟩

theorem witness_SameAngleGivesSameResult :
    (requested.setVector ⟨1#32, 2#32, 3#32⟩).params = requested.params ∧
    Accepts (requested.setVector ⟨1#32, 2#32, 3#32⟩) 0x3243F6A9#32 ∧ Accepts requested 0x3243F6A9#32 ∧
    NoReset 18 (requested.setVector ⟨1#32, 2#32, 3#32⟩) ∧ NoReset 18 requested :=
  ⟨rfl, ⟨by decide, by decide, by decide, by decide⟩, requested_accepts, by unfold NoReset; decide, requested_noReset⟩

theorem witness_DomainViolationIsReportedWithTheResult :
    (Accepts requested 0x3243F6A9#32 ∧ NoReset 18 requested ∧ requested.params.twoPiQ = defaultParams.twoPiQ) ∧
    ∃ u, step (atEdge .idle 0 nopVector) = .next u ∧ (atEdge .idle 0 nopVector).op ≠ .compose ∧
      (atEdge .idle 0 nopVector).op ≠ .reset :=
  ⟨⟨requested_accepts, requested_noReset, rfl⟩, ⟨_, rfl, by decide, by decide⟩⟩

/-- A block whose `start` is held high for two transactions. -/
def heldStart : State := State.reset.drive (List.replicate 36 (startLine 0x10000000#32))

theorem witness_HeldStartRunsBackToBack :
    heldStart.st = .idle ∧ ∀ j < 18 * (1 + 1), (heldStart.inputAt j).rst = false ∧ (heldStart.inputAt j).start = true := by
  decide

theorem witness_RunLineComputesItsAngle :
    (State.reset.drive (expandLine (.run (.hex 5)) ++ [nopVector])).st = .idle ∧
    (State.reset.drive (expandLine (.run (.hex 5)) ++ [nopVector])).stimulus =
      expandLine (.run (.hex 5)) ++ [nopVector] := by decide

theorem witness_ReachableControlIsKept :
    ReachableControl (atEdge .rotate 15 nopVector) ∧ (atEdge .rotate 15 nopVector).pins.rst = false ∧
    ∃ u, step (atEdge .rotate 15 nopVector) = .next u := ⟨by decide, by decide, _, rfl⟩

/-- A block in ROTATE, one edge into the transaction of π. -/
def rotating : State :=
  { atEdge .rotate 0 nopVector with x := 0x09B74EDB#32, y := 0#32, z := 0#32, cneg := true }

theorem witness_CoherenceIsKeptByEveryEdge : Coherent rotating ∧ ∃ u, step rotating = .next u :=
  ⟨⟨by decide, ⟨0x3243F6A9#32, ⟨by decide, by decide, by decide⟩⟩, ⟨.inl rfl, fun h => absurd h (by decide)⟩⟩, _, rfl⟩

theorem witness_CoherenceHoldsAfterReset : (atEdge .illegal 7 ⟨true, false, 0#32⟩).pins.rst = true := by decide

theorem witness_IdleIsReachedWithinSeventeenEdges :
    NoReset 17 { atEdge .rotate 0 nopVector with stimulus := List.replicate 17 nopVector } ∧
    (atEdge .rotate 9 ⟨true, false, 0#32⟩).pins.rst = true := ⟨by unfold NoReset; decide, by decide⟩

theorem witness_StaleDatapathIsUnobservable :
    requested.st = .idle ∧ (∃ u, step (atEdge .compose 0 nopVector) = .next u) ∧
    (atEdge .compose 0 nopVector).op = .compose ∧ (atEdge .idle 0 nopVector).op = .idleHold :=
  ⟨by decide, ⟨_, rfl⟩, by decide, by decide⟩

/-- A block that is reset, waits two edges, and is asked for 1.0. -/
def resetThenRequest : State :=
  State.reset.drive (⟨true, false, 0#32⟩ :: nopVector :: nopVector :: startLine 0x10000000#32 :: List.replicate 17 nopVector)

theorem witness_FirstTransactionAfterReset :
    resetThenRequest.pins.rst = true ∧
    (∀ j ≤ 2, 1 ≤ j → (resetThenRequest.inputAt j).rst = false ∧ (resetThenRequest.inputAt j).start = false) ∧
    (resetThenRequest.inputAt 3).start = true ∧ (resetThenRequest.inputAt 3).angleIn = 0x10000000#32 ∧
    ∀ j ≤ 20, 3 ≤ j → (resetThenRequest.inputAt j).rst = false := by decide

/-- A block in ROTATE that is reset, and reset again with a request, and then asked for nothing. -/
def aborted : State :=
  { atEdge .rotate 5 nopVector with stimulus := [⟨true, false, 0#32⟩, ⟨true, true, 5#32⟩, nopVector] }

theorem witness_ResetDiscardsTheTransaction :
    aborted.pins.rst = true ∧
    ∀ j ≤ 2, 1 ≤ j → (aborted.inputAt j).rst = true ∨ (aborted.inputAt j).start = false := by decide

end Sys2Proof.Tests
end

section
/-! The angle constants (00_scope.md R7, 41_range_reducer.md R121): the default words as integers, and one enclosure
of `π · 2^28` that is narrow enough for the rounding of all four. -/

namespace Sys2Proof.Machine

@[simp] theorem sint_defaultParams_halfPiQ : sint defaultParams.halfPiQ = 421657428 := by decide
@[simp] theorem sint_defaultParams_piQ : sint defaultParams.piQ = 843314857 := by decide
@[simp] theorem sint_defaultParams_threeHalfPiQ : sint defaultParams.threeHalfPiQ = 1264972285 := by decide
@[simp] theorem sint_defaultParams_twoPiQ : sint defaultParams.twoPiQ = 1686629713 := by decide

theorem pi_scaled_gt : 843314856.53 < Real.pi * 2 ^ 28 := by linarith [Real.pi_gt_d20]

theorem pi_scaled_lt : Real.pi * 2 ^ 28 < 843314856.54 := by linarith [Real.pi_lt_d20]

end Sys2Proof.Machine

namespace Sys2Proof.Proofs
open Sys2Proof.Machine

/-- Settles O24: the enclosure of `π · 2^28`, scaled by 1/2, 1, 3/2 and 2, lies within one half of each word; the two
disagreements are integer arithmetic on the words. -/
theorem angleConstantsAreRoundedMultiplesOfPi : Obligations.AngleConstantsAreRoundedMultiplesOfPi := by
  have lo := pi_scaled_gt
  have hi := pi_scaled_lt
  simp only [Obligations.AngleConstantsAreRoundedMultiplesOfPi, sint_defaultParams_halfPiQ, sint_defaultParams_piQ,
    sint_defaultParams_threeHalfPiQ, sint_defaultParams_twoPiQ, Int.cast_ofNat]
  refine ⟨?half, ?one, ?threeHalves, ?two, ?halfDisagrees, ?twoDisagrees⟩
  case half | one | threeHalves | two => exact abs_le.2 ⟨by linarith, by linarith⟩
  case halfDisagrees | twoDisagrees => decide

end Sys2Proof.Proofs
end

section
/-! The registers (10_state.md): what each micro-operation may write, said once over `exec` and carried to a step; and
the states that differ from an IDLE state in its stale registers alone (R38). -/

namespace Sys2Proof.Machine

/-! ### The micro-operation of an edge, and runs -/

/-- The inversion of `step_exec_op`. -/
theorem exec_op_of_step {s u : State} (h : step s = .next u) : ∃ t, exec s.op s = .next t ∧ u = t.afterEdge := by
  obtain ⟨t, ht, hs⟩ := step_exec_op s
  rw [hs] at h
  exact ⟨t, ht, by injection h with h; exact h.symm⟩

theorem State.op_eq_compose_iff (s : State) : s.op = .compose ↔ s.pins.rst = false ∧ s.st = .compose := by
  rw [State.op, s.decode_ctl]
  cases s.pins.rst with
  | true => simp
  | false =>
    cases s.st with
    | idle => cases s.pins.start <;> simp
    | rotate | compose | illegal => simp

/-- The ROTATE that a step performs is that of the counter. -/
theorem State.op_eq_rotate_iff (s : State) (n : Index) :
    s.op = .rotate n ↔ s.pins.rst = false ∧ s.st = .rotate ∧ s.cnt = n := by
  rw [State.op, s.decode_ctl]
  cases s.pins.rst with
  | true => simp
  | false =>
    cases s.st with
    | idle => cases s.pins.start <;> simp
    | rotate | compose | illegal => simp

/-- Every run answers a state (40_sequencer.md R100). -/
theorem edges_next (k : Nat) (s : State) : ∃ u, edges k s = .next u := by
  induction k generalizing s with
  | zero => exact ⟨s, rfl⟩
  | succ k ih =>
    obtain ⟨t, -, hs⟩ := step_exec_op s
    rw [edges_succ hs]; exact ih _

/-! ### The writers of each register -/

section Writers
variable {i : Instr} {s t : State}

theorem exec_done_iff (h : exec i s = .next t) : t.done = true ↔ i = .compose := by
  cases i <;> cases h <;> simp

theorem exec_compose_st (h : exec .compose s = .next t) : t.st = .idle := by
  cases h; rfl

theorem exec_vector_writers (h : exec i s = .next t) :
    VectorKept s t ∨ i = .reset ∨ i = .load ∨ ∃ n, i = .rotate n := by
  cases i with
  | reset | load | rotate => simp
  | idleHold | compose | illegalRecover => cases h; exact .inl ⟨rfl, rfl, rfl⟩

theorem exec_signs_writers (h : exec i s = .next t) : SignsKept s t ∨ i = .reset ∨ i = .load := by
  cases i with
  | reset | load => simp
  | idleHold | rotate | compose | illegalRecover => cases h; exact .inl ⟨rfl, rfl⟩

theorem exec_result_writers (h : exec i s = .next t) : t.result = s.result ∨ i = .reset ∨ i = .compose := by
  cases i with
  | reset | compose => simp
  | idleHold | load | rotate | illegalRecover => cases h; exact .inl rfl

theorem exec_seq_writers (h : exec i s = .next t) :
    (t.st = s.st ∧ t.cnt = s.cnt) ∨ i = .reset ∨ i = .load ∨ (∃ n, i = .rotate n) ∨ i = .compose ∨
      i = .illegalRecover := by
  cases i with
  | reset | load | rotate | compose | illegalRecover => simp
  | idleHold => cases h; exact .inl ⟨rfl, rfl⟩

end Writers

theorem VectorKept.afterEdge {s t : State} (h : VectorKept s t) : VectorKept s t.afterEdge :=
  ⟨by simp [h.x], by simp [h.y], by simp [h.z]⟩

theorem SignsKept.afterEdge {s t : State} (h : SignsKept s t) : SignsKept s t.afterEdge :=
  ⟨by simp [h.cneg], by simp [h.derr]⟩

section StepWriters
variable {s u : State}

theorem State.op_rotate_cnt (h : ∃ n, s.op = .rotate n) : s.op = .rotate s.cnt := by
  obtain ⟨n, hn⟩ := h
  obtain ⟨-, -, hcnt⟩ := (s.op_eq_rotate_iff n).1 hn
  rw [hn, hcnt]

theorem step_done_iff (h : step s = .next u) : u.done = true ↔ s.op = .compose := by
  obtain ⟨t, ht, rfl⟩ := exec_op_of_step h
  simpa using exec_done_iff ht

theorem step_compose_st (h : step s = .next u) (hop : s.op = .compose) : u.st = .idle := by
  obtain ⟨t, ht, rfl⟩ := exec_op_of_step h
  rw [hop] at ht
  simpa using exec_compose_st ht

theorem step_vector_writers (h : step s = .next u) :
    VectorKept s u ∨ s.op = .reset ∨ s.op = .load ∨ s.op = .rotate s.cnt := by
  obtain ⟨t, ht, rfl⟩ := exec_op_of_step h
  exact (exec_vector_writers ht).imp VectorKept.afterEdge (.imp_right (.imp_right State.op_rotate_cnt))

theorem step_signs_writers (h : step s = .next u) : SignsKept s u ∨ s.op = .reset ∨ s.op = .load := by
  obtain ⟨t, ht, rfl⟩ := exec_op_of_step h
  exact (exec_signs_writers ht).imp_left SignsKept.afterEdge

theorem step_result_writers (h : step s = .next u) : u.result = s.result ∨ s.op = .reset ∨ s.op = .compose := by
  obtain ⟨t, ht, rfl⟩ := exec_op_of_step h
  simpa using exec_result_writers ht

theorem step_seq_writers (h : step s = .next u) :
    (u.st = s.st ∧ u.cnt = s.cnt) ∨ s.op = .reset ∨ s.op = .load ∨ s.op = .rotate s.cnt ∨ s.op = .compose ∨
      s.op = .illegalRecover := by
  obtain ⟨t, ht, rfl⟩ := exec_op_of_step h
  simpa using (exec_seq_writers ht).imp_right (.imp_right (.imp_right (.imp_left State.op_rotate_cnt)))

end StepWriters

/-! ### The angle pin -/

/-- LOAD alone reads `angle_in`; and the edge's vector is gone after it. -/
theorem exec_ignores_angle {i : Instr} (hi : i ≠ .load) (s : State) (v : InputVector) (vs : List InputVector)
    (a : Word) :
    ∃ t t', exec i { s with stimulus := { v with angleIn := a } :: vs } = .next t ∧
      exec i { s with stimulus := v :: vs } = .next t' ∧ t.afterEdge = t'.afterEdge := by
  cases i with
  | load => exact absurd rfl hi
  | reset | idleHold | rotate | compose | illegalRecover => exact ⟨_, _, rfl, rfl, rfl⟩

/-! ### Stale registers -/

/-- The IDLE state that differs from `s` in the stale registers of R38 and R221 alone: `x`, `y`, `z`, `cneg`, `derr`
and `cnt`. -/
def State.withStale (s : State) (v : Triple) (b d : Bool) (n : Index) : State :=
  ((s.setVector v).setSigns b d).setSeq .idle n

section Stale
variable (s : State) (v : Triple) (b d : Bool) (n : Index)

@[simp] theorem State.withStale_pins : (s.withStale v b d n).pins = s.pins := rfl
@[simp] theorem State.withStale_st : (s.withStale v b d n).st = .idle := rfl
@[simp] theorem State.withStale_params : (s.withStale v b d n).params = s.params := rfl
@[simp] theorem State.withStale_clearRegisters : (s.withStale v b d n).clearRegisters = s.clearRegisters := rfl
@[simp] theorem State.withStale_setDone (e : Bool) :
    (s.withStale v b d n).setDone e = (s.setDone e).withStale v b d n := rfl
/-- LOAD's writes cover every stale register. -/
@[simp] theorem State.withStale_overwritten (v' : Triple) (b' d' : Bool) (q : SeqState) (n' : Index) :
    (((s.withStale v b d n).setVector v').setSigns b' d').setSeq q n' =
      ((s.setVector v').setSigns b' d').setSeq q n' := rfl
@[simp] theorem State.withStale_afterEdge : (s.withStale v b d n).afterEdge = s.afterEdge.withStale v b d n := by
  cases h : s.stimulus <;> simp [State.withStale, State.afterEdge, State.setVector, State.setSigns, State.setSeq, h]

theorem State.withStale_outputs (h : s.st = .idle) : (s.withStale v b d n).outputs = s.outputs := by
  simp only [State.outputs, State.busy, h, State.withStale_st]; rfl

/-- An edge from IDLE overwrites the stale registers (RESET, LOAD) or passes them on into IDLE (IDLE_HOLD). -/
theorem step_withStale (h : s.st = .idle) :
    step (s.withStale v b d n) = step s ∨
    ∃ u, step s = .next u ∧ u.st = .idle ∧ step (s.withStale v b d n) = .next (u.withStale v b d n) := by
  cases hr : s.pins.rst with
  | true =>
    left
    rw [step_reset hr, step_reset (s := s.withStale v b d n) hr, State.withStale_clearRegisters]
  | false =>
    cases hb : s.pins.start with
    | true =>
      left
      rw [step_load hr h hb, step_load (s := s.withStale v b d n) hr rfl hb]; simp
    | false =>
      right
      refine ⟨_, step_idleHold hr h hb, by simpa using h, ?_⟩
      rw [step_idleHold (s := s.withStale v b d n) hr rfl hb]; simp

theorem edges_withStale_outputs (k : Nat) (h : s.st = .idle) :
    ∃ u u', edges k s = .next u ∧ edges k (s.withStale v b d n) = .next u' ∧ u.outputs = u'.outputs := by
  induction k generalizing s with
  | zero => exact ⟨_, _, rfl, rfl, (s.withStale_outputs v b d n h).symm⟩
  | succ k ih =>
    rcases step_withStale s v b d n h with he | ⟨u, hs, hu, hs'⟩
    · obtain ⟨w, hw⟩ := edges_next (k + 1) s
      exact ⟨w, w, hw, by rw [edges, he]; exact hw, rfl⟩
    · rw [edges_succ hs, edges_succ hs']; exact ih u hu

end Stale

/-! ### Reset -/

theorem State.clearRegisters_atReset (s : State) : RegistersAtReset s.clearRegisters := by
  constructor <;> rfl

theorem State.reset_atReset : RegistersAtReset State.reset := State.clearRegisters_atReset State.reset

end Sys2Proof.Machine

namespace Sys2Proof.Proofs
open Sys2Proof.Machine

/-- Settles O17: `done` is what `exec` of COMPOSE alone sets; and the cycle it marks is IDLE, where no COMPOSE is
performed. -/
theorem doneMarksTheCycleAfterCompose : Obligations.DoneMarksTheCycleAfterCompose := by
  intro s u hs
  have idle (hd : u.done = true) : u.st = .idle := step_compose_st hs ((step_done_iff hs).1 hd)
  refine ⟨step_done_iff hs, idle, fun w hw hd => ?_⟩
  have notCompose : u.op ≠ .compose := by simp [u.op_eq_compose_iff, idle hd]
  rw [← Bool.not_eq_true, step_done_iff hw]
  exact notCompose

/-- Settles O18: register by register, the step keeps it or its micro-operation is a named writer. -/
theorem onlyTheNamedWritersWrite : Obligations.OnlyTheNamedWritersWrite := by
  intro s u hs
  refine ⟨?vector, ?signs, ?result, ?seq, ?done⟩
  case vector =>
    exact fun hne => (step_vector_writers hs).resolve_left fun kept => by simp [kept.x, kept.y, kept.z] at hne
  case signs =>
    exact fun hne => (step_signs_writers hs).resolve_left fun kept => by simp [kept.cneg, kept.derr] at hne
  case result => exact (step_result_writers hs).resolve_left
  case seq =>
    exact fun hne => (step_seq_writers hs).resolve_left fun kept => by simp [kept] at hne
  case done =>
    intro
    split
    case isTrue hd => exact (step_done_iff hs).1 hd
    case isFalse hd => exact mt (step_done_iff hs).2 hd

/-- Settles O20: the two states form the same control word, and no micro-operation but LOAD reads the angle. -/
theorem angleMattersOnlyAtLoad : Obligations.AngleMattersOnlyAtLoad := by
  intro s v vs a hop
  obtain ⟨t, t', ht, ht', he⟩ := exec_ignores_angle hop s v vs a
  calc
    step { s with stimulus := { v with angleIn := a } :: vs } = .next t.afterEdge := step_of_exec ht
    _ = .next t'.afterEdge := by rw [he]
    _ = step { s with stimulus := v :: vs } := (step_of_exec ht').symm

/-- Settles O46: the writers give the first clause; the second is a simulation, in which the next RESET or LOAD edge
makes the two states equal. -/
theorem staleDatapathIsUnobservable : Obligations.StaleDatapathIsUnobservable := by
  refine ⟨fun s u hs hop => ⟨?vector, ?signs⟩, fun k s v b d n hq => edges_withStale_outputs s v b d n k hq⟩
  case vector =>
    refine (step_vector_writers hs).resolve_right ?_
    rcases hop with hop | hop <;> simp [hop]
  case signs =>
    refine (step_signs_writers hs).resolve_right ?_
    rcases hop with hop | hop <;> simp [hop]

/-- Settles O1: RESET clears every register, and `State.reset` is a cleared state with the default parameters. -/
theorem resetValuesAreThoseOfTheTable : Obligations.ResetValuesAreThoseOfTheTable :=
  ⟨State.reset_atReset, rfl, fun s => ⟨s.clearRegisters, rfl, s.clearRegisters_atReset, fun _ => rfl, rfl⟩⟩

end Sys2Proof.Proofs
end

section
/-! The memory (20_memory.md): no run writes the ROM or the constants (R54); the default words (R51, R53); and their
distance from the arctangents, which lie between two partial sums of an alternating series. -/

namespace Sys2Proof.Machine

/-! ### No writer of the parameters -/

theorem step_params {s u : State} (h : step s = .next u) : u.params = s.params := by
  obtain ⟨-, rfl⟩ | ⟨-, -, -, rfl⟩ | ⟨-, -, -, rfl⟩ | ⟨-, -, rfl⟩ | ⟨-, -, rfl⟩ | ⟨-, -, rfl⟩ := step_cases h <;> simp

theorem edges_params {k : Nat} {s u : State} (h : edges k s = .next u) : u.params = s.params := by
  induction k generalizing s with
  | zero => injection h with h; rw [h]
  | succ k ih =>
    obtain ⟨t, -, hs⟩ := step_exec_op s
    rw [edges_succ hs] at h
    rw [ih h, step_params hs]

/-! ### The default ROM -/

/-- The words of the ROM in the order of their indices. -/
def romWords (p : Params) : List Nat := (List.finRange 16).map fun i => (memRead p (BitVec.ofFin i)).toNat

/-- The decimal column of R51's table. -/
theorem romWords_defaultParams :
    romWords defaultParams =
      [210828714, 124459457, 65760959, 33381290, 16755422, 8385879, 4193963, 2097109,
       1048571, 524287, 262144, 131072, 65536, 32768, 16384, 8192] := by decide

@[simp] theorem sint_memRead_defaultParams_zero : sint (memRead defaultParams 0#4) = 210828714 := by decide

/-! ### The arctangent between partial sums of its series -/

/-- The first `n` terms of the arctangent series `x - x^3 / 3 + x^5 / 5 - …`, at a rational. -/
def arctanSum (n : ℕ) (x : ℚ) : ℚ := ∑ k ∈ Finset.range n, (-1) ^ k * (x ^ (2 * k + 1) / (2 * k + 1))

theorem cast_arctanSum (n : ℕ) (x : ℚ) :
    (arctanSum n x : ℝ) = ∑ k ∈ Finset.range n, (-1) ^ k * ((x : ℝ) ^ (2 * k + 1) / (2 * k + 1)) := by
  simp [arctanSum]

theorem antitone_arctan_terms {x : ℝ} (h₀ : 0 ≤ x) (h₁ : x ≤ 1) :
    Antitone fun k : ℕ => x ^ (2 * k + 1) / (2 * k + 1 : ℝ) := by
  intro m n hmn
  have hpow : x ^ (2 * n + 1) ≤ x ^ (2 * m + 1) := pow_le_pow_of_le_one h₀ h₁ (by omega)
  dsimp only
  gcongr

/-- An even number of terms is a lower bound, an odd number an upper bound. -/
theorem arctan_mem_Icc_arctanSum {x : ℚ} (h₀ : 0 ≤ x) (h₁ : x < 1) (m : ℕ) :
    Real.arctan x ∈ Set.Icc (arctanSum (2 * m) x : ℝ) (arctanSum (2 * m + 1) x) := by
  have hr₀ : (0 : ℝ) ≤ x := by exact_mod_cast h₀
  have hr₁ : (x : ℝ) < 1 := by exact_mod_cast h₁
  have hanti := antitone_arctan_terms hr₀ hr₁.le
  have hlim := (Real.hasSum_arctan (x := x) (by rwa [Real.norm_of_nonneg hr₀])).tendsto_sum_nat
  simp only [Nat.cast_add, Nat.cast_mul, Nat.cast_ofNat, Nat.cast_one, mul_div_assoc] at hlim
  rw [cast_arctanSum, cast_arctanSum]
  exact ⟨hanti.alternating_series_le_tendsto hlim m, hanti.tendsto_le_alternating_series hlim m⟩

/-! ### The default words are rounded arctangents -/

/-- Twelve and thirteen terms suffice for every word but word 0, whose series converges too slowly. -/
theorem arctanSum_near_romWord {i : Index} (hi : i ≠ 0#4) :
    sint (memRead defaultParams i) - 1 / 2 ≤ arctanSum 12 (2⁻¹ ^ i.toNat) * 2 ^ 28 ∧
    arctanSum 13 (2⁻¹ ^ i.toNat) * 2 ^ 28 ≤ sint (memRead defaultParams i) + 1 / 2 := by
  obtain ⟨⟨n, hn⟩⟩ := i
  interval_cases n
  · exact absurd rfl hi
  all_goals
    norm_num [arctanSum, Finset.sum_range_succ, memRead, defaultParams, defaultAtanRom, sint, BitVec.toInt]

theorem romWord_zero_near_arctan : |(sint (memRead defaultParams 0#4) : ℝ) - Real.arctan 1 * 2 ^ 28| ≤ 1 / 2 := by
  rw [sint_memRead_defaultParams_zero, Real.arctan_one, Int.cast_ofNat]
  exact abs_le.2 ⟨by linarith [pi_scaled_lt], by linarith [pi_scaled_gt]⟩

theorem romWord_near_arctan {i : Index} (hi : i ≠ 0#4) :
    |(sint (memRead defaultParams i) : ℝ) - Real.arctan ((2 : ℝ)⁻¹ ^ i.toNat) * 2 ^ 28| ≤ 1 / 2 := by
  have hn : i.toNat ≠ 0 := fun h => hi (BitVec.eq_of_toNat_eq h)
  have hx : (2⁻¹ : ℚ) ^ i.toNat < 1 := pow_lt_one₀ (by norm_num) (by norm_num) hn
  obtain ⟨sum_ge, sum_le⟩ := arctanSum_near_romWord hi
  obtain ⟨arctan_ge, arctan_le⟩ := arctan_mem_Icc_arctanSum (by positivity) hx 6
  rw [← Rat.cast_le (K := ℝ)] at sum_ge sum_le
  push_cast at sum_ge sum_le arctan_ge arctan_le
  exact abs_le.2 ⟨by linarith, by linarith⟩

end Sys2Proof.Machine

namespace Sys2Proof.Proofs
open Sys2Proof.Machine

/-- Settles O19: no edge writes the parameters, by induction on the run; and a ROM read is of the parameters. -/
theorem romAndConstantsAreNeverWritten : Obligations.RomAndConstantsAreNeverWritten := by
  intro k s
  obtain ⟨u, hu⟩ := edges_next k s
  have hp : u.params = s.params := edges_params hu
  exact ⟨u, hu, fun i => by rw [hp], hp⟩

/-- Settles O23: word 0 by the enclosure of π, the others by the alternating series. -/
theorem romWordsAreRoundedArctangents : Obligations.RomWordsAreRoundedArctangents := by
  intro i
  by_cases hi : i = 0#4
  · subst hi
    simpa using romWord_zero_near_arctan
  · exact romWord_near_arctan hi

/-- Settles O22: the table of the words gives their sum; the other clauses compare the words at the sixteen indices. -/
theorem defaultRomWordsAndProperties : Obligations.DefaultRomWordsAndProperties := by
  refine ⟨romWords_defaultParams, ?halves, ?equality, ?range, ?first, ?sum⟩
  case halves | equality | range => decide
  case first =>
    rw [sint_memRead_defaultParams_zero, sint_defaultParams_piQ]
    rfl
  case sum =>
    change (romWords defaultParams).sum = 467951747
    rw [romWords_defaultParams]
    rfl

end Sys2Proof.Proofs
end

section
/-! The encodings (30_encoding.md): the control word as a number, the bits a micro-operation ignores (R74), and the
control positions a run reaches (R76); the 34-bit input vector (R77); and the transaction from its LOAD edge to its
COMPOSE edge, which one RUN line drives (R78). -/

namespace Sys2Proof.Machine

/-! ### The control word and its decoding -/

theorem makeCtl_toNat (r b : Bool) (q : SeqState) (n : Index) :
    (makeCtl r b q n).toNat = r.toNat * 128 + b.toNat * 64 + q.toBits.toNat * 16 + n.toNat := by
  cases r <;> cases b <;> cases q <;> revert n <;> decide

theorem State.ctl_toNat (s : State) :
    s.ctl.toNat = s.pins.rst.toNat * 128 + s.pins.start.toNat * 64 + s.st.toBits.toNat * 16 + s.cnt.toNat :=
  makeCtl_toNat ..

/-- Every control word matches one row of the table and no other (R73). -/
theorem opcodeTable_admits_one (c : ControlWord) : (opcodeTable.filter fun r => r.admits c).length = 1 := by
  revert c; decide

/-- The first matching row is the row of the decoded micro-operation (R71). -/
theorem tableMnemonic_eq_decode (c : ControlWord) : tableMnemonic c = some (decode c).mnemonic := by
  revert c; decide

theorem ctlCnt_toNat (c : ControlWord) : (ctlCnt c).toNat = c.toNat % 16 := by
  simp [ctlCnt]

theorem ctlCnt_of_decode_rotate {c : ControlWord} {i : Index} (h : decode c = .rotate i) : ctlCnt c = i := by
  rw [← makeCtl_fields c, decode_makeCtl] at h
  cases hr : ctlRst c with
  | true => simp [hr] at h
  | false =>
    cases hq : ctlSt c with
    | idle => cases hb : ctlStart c <;> simp [hr, hq, hb] at h
    | rotate => simpa [hr, hq] using h
    | compose | illegal => simp [hr, hq] at h

/-- Outside IDLE, `start` is ignored (R74). -/
theorem decode_makeCtl_start {q : SeqState} (hq : q ≠ .idle) (r b b' : Bool) (n : Index) :
    decode (makeCtl r b q n) = decode (makeCtl r b' q n) := by
  rw [decode_makeCtl, decode_makeCtl]
  cases q with
  | idle => exact absurd rfl hq
  | rotate | compose | illegal => rfl

/-- Outside ROTATE, `cnt` is ignored (R74). -/
theorem decode_makeCtl_cnt {q : SeqState} (hq : q ≠ .rotate) (r b : Bool) (n n' : Index) :
    decode (makeCtl r b q n) = decode (makeCtl r b q n') := by
  rw [decode_makeCtl, decode_makeCtl]
  cases q with
  | rotate => exact absurd rfl hq
  | idle | compose | illegal => rfl

theorem decode_makeCtl_rst (b : Bool) (q : SeqState) (n : Index) : decode (makeCtl true b q n) = .reset := by
  simp [decode_makeCtl]

/-! ### What an edge does to the inputs, and what it reads of them -/

/-- No micro-operation writes the environment's fields. -/
theorem exec_environmentKept {i : Instr} {s t : State} (h : exec i s = .next t) : EnvironmentKept s t := by
  cases i <;> cases h <;> exact ⟨rfl, rfl⟩

theorem step_stimulus {s u : State} (h : step s = .next u) : u.stimulus = s.stimulus.tail := by
  obtain ⟨t, ht, rfl⟩ := exec_op_of_step h
  rw [t.afterEdge_stimulus, (exec_environmentKept ht).stimulus]

theorem edges_stimulus {k : Nat} {s u : State} (h : edges k s = .next u) : u.stimulus = s.stimulus.drop k := by
  induction k generalizing s with
  | zero => injection h with h; simp [h]
  | succ k ih =>
    obtain ⟨t, -, hs⟩ := step_exec_op s
    rw [edges_succ hs] at h
    rw [ih h, step_stimulus hs, List.drop_tail]

/-- No micro-operation reads the pin `start`: it acts through the control word alone; and the edge's vector is gone
after it. -/
theorem exec_ignores_start (i : Instr) (s : State) (v : InputVector) (vs : List InputVector) (b : Bool) :
    ∃ t t', exec i { s with stimulus := { v with start := b } :: vs } = .next t ∧
      exec i { s with stimulus := v :: vs } = .next t' ∧ t.afterEdge = t'.afterEdge := by
  cases i <;> exact ⟨_, _, rfl, rfl, rfl⟩

/-! ### The reachable control positions -/

theorem step_reachableControl {s u : State} (hs : ReachableControl s) (h : step s = .next u) : ReachableControl u := by
  unfold ReachableControl
  obtain ⟨notIllegal, cntZero⟩ := hs
  obtain ⟨-, rfl⟩ | ⟨-, idle, -, rfl⟩ | ⟨-, -, -, rfl⟩ | ⟨-, -, rfl⟩ | ⟨-, -, rfl⟩ | ⟨-, illegal, rfl⟩ := step_cases h
  · simp
  · simp [idle, cntZero (.inl idle)]
  · simp
  · by_cases last : s.cnt = 15#4 <;> simp [stAfterRotate, cntAfterRotate, last]
  · simp
  · exact absurd illegal notIllegal

/-! ### The input vector and the literals -/

theorem InputVector.toBits_toNat (v : InputVector) :
    v.toBits.toNat = v.rst.toNat * 2 ^ 33 + v.start.toNat * 2 ^ 32 + v.angleIn.toNat := by
  have pins : (BitVec.ofBool v.rst ++ BitVec.ofBool v.start).toNat = v.rst.toNat * 2 + v.start.toNat := by
    cases v.rst <;> cases v.start <;> rfl
  rw [InputVector.toBits, BitVec.toNat_append, ← Nat.shiftLeft_add_eq_or_of_lt v.angleIn.isLt, pins, Nat.shiftLeft_eq]
  ring

/-- The three fields are digits of the number the bits form. -/
theorem InputVector.toBits_ofBits (b : BitVec 34) : (InputVector.ofBits b).toBits = b := by
  apply BitVec.eq_of_toNat_eq
  rw [InputVector.toBits_toNat]
  simp only [InputVector.ofBits, BitVec.getLsbD, Nat.toNat_testBit, BitVec.extractLsb'_toNat]
  omega

theorem InputVector.ofBits_toBits (v : InputVector) : InputVector.ofBits v.toBits = v := by
  obtain ⟨r, b, a⟩ := v
  simp only [InputVector.ofBits, InputVector.toBits, BitVec.getLsbD_append, BitVec.extractLsb'_append_eq_right]
  simp

theorem Literal.wellFormed_dec_iff (v : Int) : (Literal.dec v).wellFormed = true ↔ -2 ^ 31 ≤ v ∧ v ≤ 2 ^ 31 - 1 := by
  simp [Literal.wellFormed]

theorem literalWord_hex_toNat {n : Nat} (h : (Literal.hex n).wellFormed = true) : (literalWord (.hex n)).toNat = n :=
  (BitVec.toNat_ofNat ..).trans (Nat.mod_eq_of_lt (of_decide_eq_true h))

theorem literalWord_dec_toInt {v : Int} (h : (Literal.dec v).wellFormed = true) : (literalWord (.dec v)).toInt = v := by
  obtain ⟨lo, hi⟩ := (Literal.wellFormed_dec_iff v).1 h
  exact sint_wrap32 (by omega) (by omega)

/-! ### The transaction, edge by edge -/

theorem NoReset.mono {k n : Nat} {s : State} (h : NoReset n s) (hk : k ≤ n) : NoReset k s :=
  fun j hj => h j (hj.trans_le hk)

/-- A run's pins, at an edge within the span without a reset. -/
theorem NoReset.pins {k n : Nat} {s u : State} (h : NoReset n s) (hu : edges k s = .next u) (hk : k < n) :
    u.pins.rst = false := by
  rw [State.pins, edges_inputAt hu]; exact h k hk

theorem stAfterRotate_ofNat {k : Nat} (hk : k < 15) : stAfterRotate (BitVec.ofNat 4 k) = .rotate := by
  rw [stAfterRotate, if_neg]
  rw [← BitVec.toNat_inj, BitVec.toNat_ofNat, BitVec.toNat_ofNat]
  omega

theorem cntAfterRotate_ofNat (k : Nat) : cntAfterRotate (BitVec.ofNat 4 k) = BitVec.ofNat 4 (k + 1) := by
  rw [cntAfterRotate, BitVec.ofNat_add]

/-- The block is about to perform iteration `k` of the transaction for the angle `a`. -/
structure AtIteration (s : State) (a : Word) (k : Nat) : Prop where
  st       : s.st = .rotate
  cnt      : s.cnt = BitVec.ofNat 4 k
  inFlight : InFlight s a k

theorem atIteration_zero {s u : State} {a : Word} (hs : Accepts s a) (h : step s = .next u) : AtIteration u a 0 := by
  rw [step_load hs.rst hs.idle hs.start, hs.angle] at h
  cases h
  exact ⟨by simp, by simp, by simp, by simp, by simp⟩

section Rotation
variable {s u : State} {a : Word} {k : Nat}

theorem AtIteration.inFlight_succ (hs : AtIteration s a k) (hr : s.pins.rst = false) (h : step s = .next u) :
    InFlight u a (k + 1) := by
  obtain ⟨rotating, cnt, vector, cneg, derr⟩ := hs
  rw [step_rotate hr rotating] at h
  cases h
  exact ⟨by simp [vector, cnt, iterates_succ], by simp [cneg], by simp [derr]⟩

theorem AtIteration.next (hs : AtIteration s a k) (hk : k < 15) (hr : s.pins.rst = false) (h : step s = .next u) :
    AtIteration u a (k + 1) := by
  refine ⟨?st, ?cnt, hs.inFlight_succ hr h⟩ <;> (rw [step_rotate hr hs.st] at h; cases h)
  case st => simp [hs.cnt, stAfterRotate_ofNat hk]
  case cnt => simp [hs.cnt, cntAfterRotate_ofNat]

/-- The last iteration leads to COMPOSE. -/
theorem AtIteration.last (hs : AtIteration s a 15) (hr : s.pins.rst = false) (h : step s = .next u) :
    u.st = .compose := by
  rw [step_rotate hr hs.st] at h
  cases h
  simp [hs.cnt, stAfterRotate]

/-- COMPOSE publishes `CORDIC_FN` of the transaction's angle (40_sequencer.md R107). -/
theorem InFlight.compose (hs : InFlight s a 16) (hq : s.st = .compose) (hr : s.pins.rst = false)
    (h : step s = .next u) : u.st = .idle ∧ u.cnt = 0#4 ∧ u.done = true ∧ u.result = cordicFn s.params a := by
  obtain ⟨vector, cneg, derr⟩ := hs
  rw [step_compose hr hq] at h
  cases h
  have hx : s.x = (engine s.params (reduce s.params a).angle).x := congrArg Triple.x vector
  have hy : s.y = (engine s.params (reduce s.params a).angle).y := congrArg Triple.y vector
  exact ⟨by simp, by simp, by simp, by simp [cordicFn, hx, hy, cneg, derr]⟩

end Rotation

section Transaction
variable {s : State} {a : Word}

theorem edges_atIteration {k : Nat} (hs : Accepts s a) (hk : k ≤ 15) (hr : NoReset (k + 1) s) :
    ∃ u, edges (k + 1) s = .next u ∧ AtIteration u a k := by
  induction k with
  | zero =>
    obtain ⟨u, -, hu⟩ := step_exec_op s
    exact ⟨u.afterEdge, edges_snoc (edges_zero s) hu, atIteration_zero hs hu⟩
  | succ k ih =>
    obtain ⟨t, ht, iteration⟩ := ih (by omega) (hr.mono (by omega))
    obtain ⟨u, -, hu⟩ := step_exec_op t
    exact ⟨u.afterEdge, edges_snoc ht hu, iteration.next (by omega) (hr.pins ht (by omega)) hu⟩

theorem edges_compose (hs : Accepts s a) (hr : NoReset 17 s) :
    ∃ u, edges 17 s = .next u ∧ u.st = .compose ∧ InFlight u a 16 := by
  obtain ⟨t, ht, iteration⟩ := edges_atIteration hs le_rfl (hr.mono (by omega))
  obtain ⟨u, -, hu⟩ := step_exec_op t
  have noReset := hr.pins ht (by omega)
  exact ⟨u.afterEdge, edges_snoc ht hu, iteration.last noReset hu, iteration.inFlight_succ noReset hu⟩

/-- The whole transaction (40_sequencer.md R105). -/
theorem edges_transaction (hs : Accepts s a) (hr : NoReset 18 s) :
    ∃ u, edges 18 s = .next u ∧ u.st = .idle ∧ u.cnt = 0#4 ∧ u.done = true ∧ u.result = cordicFn s.params a := by
  obtain ⟨t, ht, composing, inFlight⟩ := edges_compose hs (hr.mono (by omega))
  obtain ⟨u, -, hu⟩ := step_exec_op t
  rw [← edges_params ht]
  exact ⟨u.afterEdge, edges_snoc ht hu, inFlight.compose composing (hr.pins ht (by omega)) hu⟩

end Transaction

/-! ### The RUN line -/

theorem expandLine_wait (n : Nat) : expandLine (.wait n) = (List.replicate n Line.nop).flatMap expandLine := by
  simp [expandLine, List.flatMap_replicate]

theorem expandLine_run (w : Literal) : expandLine (.run w) = assemble [.start w, .wait 17] := by
  simp [assemble, expandLine]

theorem expandLine_run_length (w : Literal) : (expandLine (.run w)).length = 18 := by
  simp [expandLine]

theorem rst_of_mem_expandLine_run {w : Literal} {v : InputVector} (h : v ∈ expandLine (.run w)) : v.rst = false := by
  obtain rfl | h := List.mem_cons.1 h
  · rfl
  · rw [List.eq_of_mem_replicate h]; rfl

/-- The edges of the vectors listed first take their inputs from them. -/
theorem State.inputAt_mem {s : State} {vs rest : List InputVector} {j : Nat} (hs : s.stimulus = vs ++ rest)
    (hj : j < vs.length) : s.inputAt j ∈ vs := by
  rw [s.inputAt_of_lt j (by simp [hs]; omega)]
  simp [hs, hj]

section RunLine
variable {s : State} {w : Literal} {rest : List InputVector} (hs : s.stimulus = expandLine (.run w) ++ rest)
include hs

theorem accepts_run (hq : s.st = .idle) : Accepts s (literalWord w) := by
  have pins : s.pins = startLine (literalWord w) := by simp [State.pins, State.inputAt, hs, expandLine]
  exact ⟨hq, by rw [pins]; rfl, by rw [pins]; rfl, by rw [pins]; rfl⟩

theorem noReset_run : NoReset 18 s := fun _ hj =>
  rst_of_mem_expandLine_run (State.inputAt_mem hs (by rwa [expandLine_run_length]))

end RunLine

end Sys2Proof.Machine

namespace Sys2Proof.Proofs
open Sys2Proof.Machine

/-- Settles O41: the vectors of RUN are a request and seventeen edges with no reset, so the 18 edges are one whole
transaction, and they use up exactly those vectors. -/
theorem runLineComputesItsAngle : Obligations.RunLineComputesItsAngle := by
  refine ⟨expandLine_wait, fun w => ⟨expandLine_run w, expandLine_run_length w⟩, fun s w rest hq hs => ?_⟩
  obtain ⟨u, hu, idle, -, done, result⟩ := edges_transaction (accepts_run hs hq) (noReset_run hs)
  refine ⟨u, hu, idle, done, result, ?_⟩
  rw [edges_stimulus hu, hs, List.drop_left' (expandLine_run_length w)]

/-- Settles O12: the decoder reads the ignored bits nowhere; and `start`, on which the step could depend through the
pins, no micro-operation reads. -/
theorem ignoredBitsAreIgnored : Obligations.IgnoredBitsAreIgnored := by
  refine ⟨fun s v vs b hq => ?start, fun r b q n n' hq => decode_makeCtl_cnt hq r b n n', fun b b' q q' n n' => ?rst⟩
  case rst => rw [decode_makeCtl_rst, decode_makeCtl_rst]
  case start =>
    obtain ⟨t, t', ht, ht', he⟩ := exec_ignores_start ({ s with stimulus := v :: vs } : State).op s v vs b
    have sameOp : ({ s with stimulus := { v with start := b } :: vs } : State).op =
      ({ s with stimulus := v :: vs } : State).op := decode_makeCtl_start hq v.rst b v.start s.cnt
    rw [← sameOp] at ht
    calc
      step { s with stimulus := { v with start := b } :: vs } = .next t.afterEdge := step_of_exec ht
      _ = .next t'.afterEdge := by rw [he]
      _ = step { s with stimulus := v :: vs } := (step_of_exec ht').symm

/-- Settles O13: the encoding is a number with three digits; the other clauses unfold the expansion of a line. -/
theorem inputVectorsEncodeAndDecode : Obligations.InputVectorsEncodeAndDecode :=
  ⟨InputVector.toBits_toNat, InputVector.ofBits_toBits, InputVector.toBits_ofBits, fun _ => ⟨rfl, rfl, rfl, rfl⟩,
    fun _ => literalWord_hex_toNat, fun v => ⟨Literal.wellFormed_dec_iff v, literalWord_dec_toInt⟩, by decide⟩

/-- Settles O42: every writer of the position leaves a reachable one; the words are the number `ctl` forms, position by
position. -/
theorem reachableControlIsKept : Obligations.ReachableControlIsKept := by
  refine ⟨fun _ _ => step_reachableControl, fun s ⟨notIllegal, cntZero⟩ hr => ?_⟩
  have number := s.ctl_toNat
  have := s.pins.start.toNat_le
  have := s.cnt.isLt
  cases hq : s.st with
  | idle | compose =>
    left
    simp only [hr, hq, cntZero (by simp [hq])] at number
    rw [number]
    cases s.pins.start <;> decide
  | rotate =>
    right
    simp only [hr, hq, SeqState.toBits, Bool.toNat_false, BitVec.toNat_ofNat] at number
    omega
  | illegal => exact absurd hq notIllegal

/-- Settles O15: the control word by its digits; the step by what `exec` answers and what passing the edge keeps. -/
theorem stepPerformsTheDecodedMicroOperation : Obligations.StepPerformsTheDecodedMicroOperation := by
  refine ⟨State.ctl_toNat, fun s i hi => ?step, fun s => ?outputs⟩
  case step =>
    subst hi
    obtain ⟨t, ht, hu⟩ := step_exec_op s
    exact ⟨t, t.afterEdge, ht, hu, t.afterEdge_vector, t.afterEdge_cneg, t.afterEdge_derr, t.afterEdge_st,
      t.afterEdge_cnt, t.afterEdge_result, t.afterEdge_done, t.afterEdge_params, step_stimulus hu, step_inputAt hu⟩
  case outputs =>
    cases hq : s.st <;> simp [State.outputs, State.busy, hq]

/-- Settles O8: row by row for the 256 control words; and a decoded ROTATE's field is `ctl[3:0]`. -/
theorem decoderFollowsTheOpcodeTable : Obligations.DecoderFollowsTheOpcodeTable := by
  refine ⟨opcodeTable_admits_one, tableMnemonic_eq_decode, fun c i h => ?_⟩
  rw [← ctlCnt_of_decode_rotate h, ctlCnt_toNat]

end Sys2Proof.Proofs
end

section
/-! The sequencer (40_sequencer.md): the micro-operation an edge selects, the next-state table (R101), the frame of the
micro-operations that write the position and `done` alone (R102, R103), and the schedule of a transaction (R105). -/

namespace Sys2Proof.Machine

/-! ### The micro-operation an edge selects -/

theorem decode_eq_idleHold_iff (c : ControlWord) : decode c = .idleHold ↔ c &&& 0xF0#8 = 0x00#8 := by
  revert c; decide

theorem decode_eq_illegalRecover_iff (c : ControlWord) : decode c = .illegalRecover ↔ c &&& 0xB0#8 = 0x30#8 := by
  revert c; decide

theorem State.op_eq_load {s : State} (hr : s.pins.rst = false) (hq : s.st = .idle) (hb : s.pins.start = true) :
    s.op = .load := by
  simp [State.op, s.decode_ctl, hr, hq, hb]

theorem State.op_eq_illegalRecover {s : State} (hr : s.pins.rst = false) (hq : s.st = .illegal) :
    s.op = .illegalRecover := by
  simp [State.op, s.decode_ctl, hr, hq]

/-! ### What an edge leaves -/

theorem State.busy_eq_true_iff (s : State) : s.busy = true ↔ s.st ≠ .idle := by
  simp [State.busy]

/-- The rows of the next-state table for ROTATE, with the counter as a number. -/
theorem rotate_nextState (n : Index) :
    (stAfterRotate n, (cntAfterRotate n).toNat, false) =
      if n.toNat < 15 then (.rotate, n.toNat + 1, false) else (.compose, 0, false) := by
  revert n; decide

/-- Neither micro-operation of the sequencer alone writes the datapath, the result, the build or the environment. -/
theorem exec_sequencer_frame {i : Instr} {s t : State} (hi : i = .idleHold ∨ i = .illegalRecover)
    (h : exec i s = .next t) :
    VectorKept s t ∧ SignsKept s t ∧ ResultKept s t ∧ BuildKept s t ∧ EnvironmentKept s t := by
  obtain rfl | rfl := hi <;> cases h <;>
    exact ⟨⟨rfl, rfl, rfl⟩, ⟨rfl, rfl⟩, ⟨rfl, rfl, rfl⟩, ⟨fun _ => rfl, rfl⟩, ⟨rfl, rfl⟩⟩

/-- Only COMPOSE raises `done`, and only COMPOSE and RESET write the result. -/
theorem step_done_result {s u : State} (h : step s = .next u) (hreset : s.op ≠ .reset) (hcompose : s.op ≠ .compose) :
    u.done = false ∧ u.result = s.result :=
  ⟨by simpa [hcompose] using step_done_iff h, by simpa [hreset, hcompose] using step_result_writers h⟩

/-- The last edge of a run. -/
theorem step_of_edges_succ {k : Nat} {s t u : State} (ht : edges k s = .next t) (hu : edges (k + 1) s = .next u) :
    step t = .next u := by
  obtain ⟨w, -, hw⟩ := step_exec_op t
  rwa [← hu, edges_snoc ht hw]

/-! ### The schedule of a transaction -/

theorem Accepts.op {s : State} {a : Word} (hs : Accepts s a) : s.op = .load :=
  State.op_eq_load hs.rst hs.idle hs.start

theorem AtIteration.op {s : State} {a : Word} {k : Nat} (hs : AtIteration s a k) (hr : s.pins.rst = false) :
    s.op = .rotate (BitVec.ofNat 4 k) :=
  (s.op_eq_rotate_iff _).2 ⟨hr, hs.st, hs.cnt⟩

section Schedule
variable {s u : State} {a : Word} {k : Nat}

/-- From its LOAD edge to its last ROTATE edge a transaction leaves `done` at 0 and the previous result visible. -/
theorem edges_done_result (hs : Accepts s a) (hk : k ≤ 16) (hr : NoReset (k + 1) s) (hu : edges (k + 1) s = .next u) :
    u.done = false ∧ u.result = s.result := by
  induction k generalizing u with
  | zero =>
    exact step_done_result (step_of_edges_succ (edges_zero s) hu) (by simp [hs.op]) (by simp [hs.op])
  | succ k ih =>
    have hr' : NoReset (k + 1) s := hr.mono (by omega)
    obtain ⟨t, ht, iteration⟩ := edges_atIteration hs (by omega) hr'
    have op := iteration.op (hr.pins ht (by omega))
    obtain ⟨done, result⟩ := step_done_result (step_of_edges_succ ht hu) (by simp [op]) (by simp [op])
    exact ⟨done, result.trans (ih (by omega) hr' ht).2⟩

/-- The cycles after E0 to E15: about to perform iteration `k`. -/
theorem schedule_rotate (hs : Accepts s a) (hk : k ≤ 15) (hr : NoReset 18 s) :
    ∃ u, edges (k + 1) s = .next u ∧ u.st = .rotate ∧ u.cnt.toNat = k ∧ u.op = .rotate (BitVec.ofNat 4 k) ∧
      u.busy = true ∧ u.done = false ∧ u.result = s.result ∧
      u.vector = iterates s.params (reduce s.params a).angle k := by
  have hr' : NoReset (k + 1) s := hr.mono (by omega)
  obtain ⟨u, hu, iteration⟩ := edges_atIteration hs hk hr'
  obtain ⟨done, result⟩ := edges_done_result hs (by omega) hr' hu
  refine ⟨u, hu, iteration.st, ?cnt, iteration.op (hr.pins hu (by omega)), ?busy, done, result, ?vector⟩
  case cnt => rw [iteration.cnt, BitVec.toNat_ofNat]; omega
  case busy => simp [u.busy_eq_true_iff, iteration.st]
  case vector => rw [← edges_params hu]; exact iteration.inFlight.vector

/-- The cycle after E16: about to publish. -/
theorem schedule_compose (hs : Accepts s a) (hr : NoReset 18 s) :
    ∃ u, edges 17 s = .next u ∧ u.st = .compose ∧ u.op = .compose ∧ u.busy = true ∧ u.done = false ∧
      u.result = s.result ∧ u.vector = engine s.params (reduce s.params a).angle := by
  have hr' : NoReset 17 s := hr.mono (by omega)
  obtain ⟨u, hu, composing, inFlight⟩ := edges_compose hs hr'
  obtain ⟨done, result⟩ := edges_done_result hs le_rfl hr' hu
  refine ⟨u, hu, composing, u.op_eq_compose_iff.2 ⟨hr.pins hu (by omega), composing⟩, ?busy, done, result, ?vector⟩
  case busy => simp [u.busy_eq_true_iff, composing]
  case vector => rw [← edges_params hu]; exact inFlight.vector

/-- The cycle after E17: the result is published, and the next request can be taken. -/
theorem schedule_done (hs : Accepts s a) (hr : NoReset 18 s) :
    ∃ u, edges 18 s = .next u ∧ u.busy = false ∧ u.done = true ∧ u.result = cordicFn s.params a ∧
      ((s.inputAt 18).rst = false → (s.inputAt 18).start = true → u.op = .load) := by
  obtain ⟨u, hu, idle, -, done, result⟩ := edges_transaction hs hr
  have pins : u.pins = s.inputAt 18 := edges_inputAt hu 0
  refine ⟨u, hu, by simp [State.busy, idle], done, result, fun rst start => ?_⟩
  rw [← pins] at rst start
  exact State.op_eq_load rst idle start

end Schedule

end Sys2Proof.Machine

namespace Sys2Proof.Proofs
open Sys2Proof.Machine

/-- Settles O36: the cycles after E0 to E15, after E16 and after E17. -/
theorem transactionSchedule : Obligations.TransactionSchedule :=
  fun _ _ hs hr => ⟨fun _ hk => schedule_rotate hs hk hr, schedule_compose hs hr, schedule_done hs hr⟩

/-- Settles O37: the hypotheses say that the request is accepted. -/
theorem transactionComputesCordicFn : Obligations.TransactionComputesCordicFn := by
  intro s a idle start angle hr
  have accepts : Accepts s a := ⟨idle, hr 0 (by omega), start, angle⟩
  obtain ⟨u, hu, st, cnt, done, result⟩ := edges_transaction accepts hr
  exact ⟨u, hu, result, done, st, by rw [cnt]; rfl⟩

/-- Settles O38: both results are `CORDIC_FN` of the one angle at the one set of constants. -/
theorem sameAngleGivesSameResult : Obligations.SameAngleGivesSameResult := by
  intro s s' a hp hs hs' hr hr'
  obtain ⟨u, hu, -, -, -, result⟩ := edges_transaction hs hr
  obtain ⟨u', hu', -, -, -, result'⟩ := edges_transaction hs' hr'
  have same : u.result = u'.result := by rw [result, result', hp]
  exact ⟨u, u', hu, hu', congrArg Result.cos same, congrArg Result.sin same, congrArg Result.err same⟩

/-- Settles O16: each row of the table is one micro-operation's step; the two rows of ROTATE are the counter's. -/
theorem nextStateTableHolds : Obligations.NextStateTableHolds := by
  intro s
  cases hr : s.pins.rst with
  | true => exact ⟨_, step_reset hr, by simp⟩
  | false =>
    cases hq : s.st with
    | idle =>
      cases hb : s.pins.start with
      | true => exact ⟨_, step_load hr hq hb, by simp⟩
      | false => exact ⟨_, step_idleHold hr hq hb, by simp [hq]⟩
    | rotate => exact ⟨_, step_rotate hr hq, by simpa using rotate_nextState s.cnt⟩
    | compose => exact ⟨_, step_compose hr hq, by simp⟩
    | illegal => exact ⟨_, step_illegal hr hq, by simp⟩

/-- Settles O3: the row of the opcode table, and the frame of the sequencer's own micro-operations. -/
theorem idleHoldOnlyClearsDone : Obligations.IdleHoldOnlyClearsDone :=
  ⟨decode_eq_idleHold_iff, fun s => ⟨s.setDone false, rfl, rfl, rfl, rfl, exec_sequencer_frame (.inl rfl) rfl⟩⟩

/-- Settles O7: the row of the opcode table, the frame, and the decode of an ILLEGAL cycle. -/
theorem illegalRecoverReturnsToIdle : Obligations.IllegalRecoverReturnsToIdle := by
  refine ⟨decode_eq_illegalRecover_iff, fun s => ?effect,
    fun s hq => ⟨?busy, fun hr => State.op_eq_illegalRecover hr hq⟩⟩
  case effect =>
    exact ⟨(s.setSeq .idle 0#4).setDone false, rfl, rfl, rfl, rfl, rfl, exec_sequencer_frame (.inr rfl) rfl⟩
  case busy => simp [s.busy_eq_true_iff, hq]

end Sys2Proof.Proofs
end

section
/-! The angle range reducer (41_range_reducer.md): the paths of REDUCE at the default parameters (R125 (b)), from which
its ranges and what it preserves follow; the domain check (R126); and LOAD (R127). -/

namespace Sys2Proof.Machine

/-! ### The two parts of REDUCE in unbounded integers -/

/-- Step 1 fires below `-HALF_PI_Q`, and its sum is in range. -/
theorem reduceStep1_cases (a : Word) :
    (sint a < -421657428 ∧ reduceStep1 defaultParams (sint a) = sint a + 1686629713) ∨
    (-421657428 ≤ sint a ∧ reduceStep1 defaultParams (sint a) = sint a) := by
  have lo := sint_ge a
  simp only [reduceStep1, sint_defaultParams_halfPiQ, sint_defaultParams_twoPiQ]
  split
  case isTrue fires => exact .inl ⟨fires, sint_wrap32 (by omega) (by omega)⟩
  case isFalse skips => exact .inr ⟨by omega, rfl⟩

/-- Step 2, else step 3, else neither; both differences are in range. -/
theorem reduceSteps23_cases {v : Int} (hv : v < 2147483648) :
    (1264972285 < v ∧ reduceSteps23 defaultParams v = (v - 1686629713, false)) ∨
    (421657428 < v ∧ v ≤ 1264972285 ∧ reduceSteps23 defaultParams v = (843314857 - v, true)) ∨
    (v ≤ 421657428 ∧ reduceSteps23 defaultParams v = (v, false)) := by
  simp only [reduceSteps23, sint_defaultParams_halfPiQ, sint_defaultParams_piQ, sint_defaultParams_threeHalfPiQ,
    sint_defaultParams_twoPiQ]
  split
  case isTrue step2 => exact .inl ⟨step2, by rw [sint_wrap32 (by omega) (by omega)]⟩
  case isFalse notStep2 =>
    split
    case isTrue step3 => exact .inr (.inl ⟨step3, by omega, by rw [sint_wrap32 (by omega) (by omega)]⟩)
    case isFalse notStep3 => exact .inr (.inr ⟨by omega, rfl⟩)

/-! ### The paths of REDUCE -/

/-- The five paths of REDUCE at the default parameters (R125 (b)), as a relation between the input, the reduced angle
and the sign flag, all in unbounded integers. -/
inductive ReducePath : Int → Int → Bool → Prop where
  | noStep {v : Int} : -421657428 ≤ v → v ≤ 421657428 → ReducePath v v false
  | step1 {v : Int} : -2147483648 ≤ v → v < -421657428 → v + 1686629713 ≤ 421657428 →
      ReducePath v (v + 1686629713) false
  | step1Then3 {v : Int} : v < -421657428 → 421657428 < v + 1686629713 →
      ReducePath v (843314857 - (v + 1686629713)) true
  | step2 {v : Int} : 1264972285 < v → v < 2147483648 → ReducePath v (v - 1686629713) false
  | step3 {v : Int} : 421657428 < v → v ≤ 1264972285 → ReducePath v (843314857 - v) true

/-- Step 2 does not follow step 1: the sum of step 1 is too small for it. -/
theorem reduceSteps23_path (a : Word) :
    ReducePath (sint a) (reduceSteps23 defaultParams (reduceStep1 defaultParams (sint a))).1
      (reduceSteps23 defaultParams (reduceStep1 defaultParams (sint a))).2 := by
  have lo := sint_ge a
  have hi := sint_lt a
  rcases reduceStep1_cases a with ⟨fires, h1⟩ | ⟨skips, h1⟩ <;> rw [h1]
  · rcases reduceSteps23_cases (v := sint a + 1686629713) (by omega) with ⟨_, _⟩ | ⟨lo3, _, h3⟩ | ⟨hi3, h3⟩
    · omega
    · rw [h3]; exact .step1Then3 fires lo3
    · rw [h3]; exact .step1 lo fires hi3
  · rcases reduceSteps23_cases hi with ⟨lo2, h2⟩ | ⟨lo3, hi3, h3⟩ | ⟨hi3, h3⟩
    · rw [h2]; exact .step2 lo2 hi
    · rw [h3]; exact .step3 lo3 hi3
    · rw [h3]; exact .noStep skips hi3

section Path
variable {v r : Int} {neg : Bool}

/-- The range of R125 (d). -/
theorem ReducePath.range (h : ReducePath v r neg) : -460853935 ≤ r ∧ r ≤ 460853934 := by
  cases h <;> omega

/-- The range of R125 (c), for an input in the domain. -/
theorem ReducePath.range_of_domain (h : ReducePath v r neg) (lo : -1686629713 ≤ v) (hi : v ≤ 1686629713) :
    -421657428 ≤ r ∧ r ≤ 421657428 := by
  cases h <;> omega

/-- The reduced angle and the sign flag as functions of the angle step 1 leaves. -/
theorem ReducePath.angle_neg (h : ReducePath v r neg) {v1 : Int}
    (h1 : v1 = if v < -421657428 then v + 1686629713 else v) :
    r = (if v1 > 1264972285 then v1 - 1686629713 else if v1 > 421657428 then 843314857 - v1 else v1) ∧
    (neg = true ↔ 421657428 < v1 ∧ v1 ≤ 1264972285) := by
  subst h1
  cases h with
  | noStep | step1 | step2 => simp only [Bool.false_eq_true, false_iff]; omega
  | step1Then3 | step3 => simp only [true_iff]; omega

end Path

/-- Every input takes one of the paths; the last `wrap32` changes nothing, as the path's angle is in range. -/
theorem reduce_path (a : Word) :
    ReducePath (sint a) (sint (reduce defaultParams a).angle) (reduce defaultParams a).neg := by
  have path := reduceSteps23_path a
  have range := path.range
  rw [reduce, sint_wrap32 (by omega) (by omega)]
  exact path

/-! ### The domain check -/

theorem domainErr_eq_false_iff (p : Params) (a : Word) :
    domainErr p a = false ↔ -sint p.twoPiQ ≤ sint a ∧ sint a ≤ sint p.twoPiQ := by
  rw [← Bool.not_eq_true, domainErr_iff]
  omega

/-! ### What the reduction preserves -/

/-- The rounding of `TWO_PI_Q`, for which `pi_scaled_lt` is too wide (R129). -/
theorem twoPiQ_error : |(1686629713 : ℝ) - 2 * Real.pi * 2 ^ 28| < 0.07 :=
  abs_lt.2 ⟨by linarith [Real.pi_lt_d20], by linarith [Real.pi_gt_d20]⟩

/-- The rounding of `PI_Q` (R129). -/
theorem piQ_error : |(843314857 : ℝ) - Real.pi * 2 ^ 28| < 0.47 :=
  abs_lt.2 ⟨by linarith [pi_scaled_lt], by linarith [pi_scaled_gt]⟩

/-- The angle with the reflection of step 3 undone, in radians. -/
noncomputable def unreflected (neg : Bool) (θ : ℝ) : ℝ := if neg then Real.pi - θ else θ

theorem cos_unreflected (neg : Bool) (θ : ℝ) :
    Real.cos (unreflected neg θ) = (if neg then -1 else 1) * Real.cos θ := by
  cases neg <;> simp [unreflected]

theorem sin_unreflected (neg : Bool) (θ : ℝ) : Real.sin (unreflected neg θ) = Real.sin θ := by
  cases neg <;> simp [unreflected]

/-- On each path the reduced angle is the input, but for the reflection, whole turns, and the rounding of the constants
the path uses. -/
theorem ReducePath.unreflected_eq {v r : Int} {neg : Bool} (h : ReducePath v r neg) :
    ∃ (k : ℤ) (ε : ℝ), |ε| ≤ 0.54 / 2 ^ 28 ∧
      unreflected neg ((r : ℝ) / 2 ^ 28) = (v : ℝ) / 2 ^ 28 + ε + k * (2 * Real.pi) := by
  have turn := abs_lt.1 twoPiQ_error
  have half := abs_lt.1 piQ_error
  cases h with
  | noStep => exact ⟨0, 0, by norm_num, by simp [unreflected]⟩
  | step1 =>
    exact ⟨1, 1686629713 / 2 ^ 28 - 2 * Real.pi, abs_le.2 ⟨by linarith, by linarith⟩, by simp [unreflected]; ring⟩
  | step1Then3 =>
    exact ⟨1, 1686629713 / 2 ^ 28 - 2 * Real.pi + (Real.pi - 843314857 / 2 ^ 28),
      abs_le.2 ⟨by linarith, by linarith⟩, by simp [unreflected]; ring⟩
  | step2 =>
    exact ⟨-1, 2 * Real.pi - 1686629713 / 2 ^ 28, abs_le.2 ⟨by linarith, by linarith⟩, by simp [unreflected]; ring⟩
  | step3 =>
    exact ⟨0, Real.pi - 843314857 / 2 ^ 28, abs_le.2 ⟨by linarith, by linarith⟩, by simp [unreflected]; ring⟩

/-- Whole turns change neither cosine nor sine, and both change by at most the rounding error. -/
theorem ReducePath.cos_sin_near {v r : Int} {neg : Bool} (h : ReducePath v r neg) :
    |(if neg then -1 else 1) * Real.cos ((r : ℝ) / 2 ^ 28) - Real.cos ((v : ℝ) / 2 ^ 28)| ≤ 0.54 / 2 ^ 28 ∧
    |Real.sin ((r : ℝ) / 2 ^ 28) - Real.sin ((v : ℝ) / 2 ^ 28)| ≤ 0.54 / 2 ^ 28 := by
  obtain ⟨k, ε, small, turn⟩ := h.unreflected_eq
  rw [← cos_unreflected, ← sin_unreflected neg, turn, Real.cos_add_int_mul_two_pi, Real.sin_add_int_mul_two_pi]
  have displacement : |(v : ℝ) / 2 ^ 28 + ε - v / 2 ^ 28| ≤ 0.54 / 2 ^ 28 := by rwa [add_sub_cancel_left]
  exact ⟨(Real.abs_cos_sub_cos_le _ _).trans displacement, (Real.abs_sin_sub_sin_le _ _).trans displacement⟩

/-! ### LOAD -/

theorem decode_eq_load_iff (c : ControlWord) : decode c = .load ↔ c &&& 0xF0#8 = 0x40#8 := by
  revert c; decide

theorem exec_load_frame {s t : State} (h : exec .load s = .next t) :
    ResultKept s t ∧ BuildKept s t ∧ EnvironmentKept s t := by
  cases h; exact ⟨⟨rfl, rfl, rfl⟩, ⟨fun _ => rfl, rfl⟩, ⟨rfl, rfl⟩⟩

end Sys2Proof.Machine

namespace Sys2Proof.Proofs
open Sys2Proof.Machine

/-- Settles O26: every input takes one of the five paths; the clauses about the steps alone are integer arithmetic. -/
theorem reduceStaysInItsRanges : Obligations.ReduceStaysInItsRanges := by
  intro a
  have path := reduce_path a
  have lo : -2147483648 ≤ a.toInt := sint_ge a
  have hi : a.toInt < 2147483648 := sint_lt a
  refine ⟨path.angle_neg rfl, ?step1, ?step2, ?step3, fun inDomain => ?inDomain, path.range⟩
  case step1 | step2 | step3 => omega
  case inDomain =>
    obtain ⟨ge, le⟩ := (domainErr_eq_false_iff _ a).1 inDomain
    rw [sint_defaultParams_twoPiQ] at ge le
    exact path.range_of_domain ge le

/-- Settles O29: whatever path an input takes keeps its cosine, up to the sign flag, and its sine. -/
theorem reductionPreservesCosineAndSine : Obligations.ReductionPreservesCosineAndSine := by
  rw [Obligations.ReductionPreservesCosineAndSine, sint_defaultParams_twoPiQ, sint_defaultParams_piQ, Int.cast_ofNat,
    Int.cast_ofNat]
  exact ⟨twoPiQ_error, piQ_error, fun a => (reduce_path a).cos_sin_near⟩

/-- Settles O28: at the defaults the bounds are the integer of `TWO_PI_Q`. -/
theorem domainFlagIsTheClosedInterval : Obligations.DomainFlagIsTheClosedInterval := by
  refine ⟨domainErr_eq_false_iff, fun a => ?_⟩
  rw [domainErr_iff, sint_defaultParams_twoPiQ]

/-- Settles O4: the row of the opcode table, the registers LOAD writes, its frame, and the three words. -/
theorem loadStartsTransaction : Obligations.LoadStartsTransaction := by
  refine ⟨decode_eq_load_iff, fun s => ⟨_, exec_next .load s, ?effect⟩, ?lowest, ?highest, ?pi⟩
  case effect => exact ⟨rfl, rfl, rfl, rfl, rfl, rfl, rfl, rfl, rfl, exec_load_frame (exec_next .load s)⟩
  case lowest | highest | pi => decide

/-- Settles O27: the ten words of the table, evaluated. -/
theorem reducerBoundaryTable : Obligations.ReducerBoundaryTable := by
  unfold Obligations.ReducerBoundaryTable
  decide

end Sys2Proof.Proofs
end

section
/-! The gain correction (42_gain_correction.md): `K_Q` as an integer, and the reciprocal gain as one square root of a
rational, whose enclosure is then a comparison of squares (R142). -/

namespace Sys2Proof.Machine

@[simp] theorem sint_defaultParams_kQ : sint defaultParams.kQ = 163008219 := by decide

/-- The square of the gain of the first `n` steps. -/
def gainSquared (n : ℕ) : ℚ := ∏ i ∈ Finset.range n, (1 + 2⁻¹ ^ (2 * i))

/-- The gain of the steps is the square root of `gainSquared`, since every factor is non-negative. -/
theorem prod_sqrt_eq_sqrt_gainSquared (n : ℕ) :
    ∏ i ∈ Finset.range n, Real.sqrt (1 + (2 : ℝ)⁻¹ ^ (2 * i)) = Real.sqrt (gainSquared n) := by
  rw [← Real.sqrt_prod _ fun i _ => by positivity]
  simp [gainSquared]

theorem reciprocalGain_scaled (n : ℕ) :
    (∏ i ∈ Finset.range n, Real.sqrt (1 + (2 : ℝ)⁻¹ ^ (2 * i)))⁻¹ * 2 ^ 28 =
      Real.sqrt (((2 ^ 28) ^ 2 / gainSquared n : ℚ) : ℝ) := by
  push_cast
  rw [prod_sqrt_eq_sqrt_gainSquared, Real.sqrt_div (by positivity), Real.sqrt_sq (by positivity), div_eq_inv_mul]

/-- The squares of `K_Q ± 1/2` enclose the square of the reciprocal gain of sixteen steps. -/
theorem reciprocalGainSquared_near_kQ :
    (sint defaultParams.kQ - 1 / 2 : ℚ) ^ 2 ≤ (2 ^ 28) ^ 2 / gainSquared 16 ∧
    (2 ^ 28) ^ 2 / gainSquared 16 ≤ (sint defaultParams.kQ + 1 / 2 : ℚ) ^ 2 := by
  norm_num [gainSquared, Finset.prod_range_succ]

end Sys2Proof.Machine

namespace Sys2Proof.Proofs
open Sys2Proof.Machine

/-- Settles O25: the reciprocal gain is the square root of a rational that lies between the squares of `K_Q ± 1/2`. -/
theorem gainConstantIsTheRoundedReciprocalGain : Obligations.GainConstantIsTheRoundedReciprocalGain := by
  obtain ⟨lower, upper⟩ := reciprocalGainSquared_near_kQ
  rw [Obligations.GainConstantIsTheRoundedReciprocalGain, reciprocalGain_scaled]
  rw [← Rat.cast_le (K := ℝ)] at lower upper
  push_cast at lower upper ⊢
  have ge := Real.le_sqrt_of_sq_le lower
  have le := Real.sqrt_le_iff.2 ⟨by norm_num, upper⟩
  exact abs_le.2 ⟨by linarith, by linarith⟩

end Sys2Proof.Proofs
end

section
/-! The rotation engine (43_rotation_engine.md): the shift (R164), the branch-free variant (R165), ROTATE (R162), and
the bounds of a transaction at the default parameters (R167): the remaining angle by its absolute value, the vector by
its Euclidean length. -/

namespace Sys2Proof.Machine

/-! ### The shift -/

theorem getLsbD_asr (v : Word) (k : Nat) {j : Nat} (hj : j < 32) :
    (asr v k).getLsbD j = if j + k < 32 then v.getLsbD (j + k) else v.getLsbD 31 := by
  rw [asr, BitVec.getLsbD_sshiftRight, BitVec.msb_eq_getLsbD_last]
  simp [hj, Nat.add_comm k j]

/-! ### The branch-free variant: `wrap32` is a homomorphism onto the arithmetic of words -/

theorem wrap32_add (m n : Int) : wrap32 (m + n) = wrap32 m + wrap32 n := BitVec.ofInt_add m n

theorem wrap32_neg (n : Int) : wrap32 (-n) = -wrap32 n := BitVec.ofInt_neg

theorem wrap32_sub (m n : Int) : wrap32 (m - n) = wrap32 m - wrap32 n := by
  rw [sub_eq_add_neg, wrap32_add, wrap32_neg, BitVec.sub_eq_add_neg]

theorem xorNegate_zero (v : Word) : xorNegate 0x00000000#32 v = v := by
  simp [xorNegate]

/-- The complement and one more is the negation (R165). -/
theorem xorNegate_allOnes (v : Word) : xorNegate 0xFFFFFFFF#32 v = -v := by
  have complement : v ^^^ 0xFFFFFFFF#32 = ~~~v := BitVec.xor_allOnes
  rw [xorNegate, complement, wrap32_sub, wrap32_sint, wrap32_sint, BitVec.neg_eq_not_add]
  exact BitVec.sub_eq_add_neg ..

/-- The shift by 31 makes the mask of the direction. -/
theorem asr_thirtyOne (z : Word) : asr z 31 = if directionPlus z then 0x00000000#32 else 0xFFFFFFFF#32 := by
  have ge := sint_ge z
  have lt := sint_lt z
  have zeros : sint 0x00000000#32 = 0 := by decide
  have ones : sint 0xFFFFFFFF#32 = -1 := by decide
  apply sint_inj
  simp only [sint_asr, apply_ite sint, directionPlus_iff, zeros, ones]
  split <;> omega

theorem iterXor_eq_iter (p : Params) (i : Index) (v : Triple) : iterXor p i v = iter p i v := by
  rw [iterXor, iter, asr_thirtyOne]
  cases directionPlus v.z with
  | true => simp [xorNegate_zero]
  | false => simp [xorNegate_allOnes, wrap32_add, wrap32_sub, BitVec.sub_eq_add_neg]

/-! ### ROTATE -/

/-- The row of ROTATE in the opcode table; its field is `ctl[3:0]`. -/
theorem decode_eq_rotate_iff (c : ControlWord) (i : Index) :
    decode c = .rotate i ↔ c &&& 0xB0#8 = 0x10#8 ∧ i.toNat = c.toNat % 16 := by
  have row : decode c = .rotate (ctlCnt c) ↔ c &&& 0xB0#8 = 0x10#8 := by revert c; decide
  rw [← row, ← ctlCnt_toNat, BitVec.toNat_inj]
  constructor
  · intro h
    obtain rfl := ctlCnt_of_decode_rotate h
    exact ⟨h, rfl⟩
  · rintro ⟨h, rfl⟩
    exact h

theorem exec_rotate_frame {i : Index} {s t : State} (h : exec (.rotate i) s = .next t) :
    SignsKept s t ∧ ResultKept s t ∧ BuildKept s t ∧ EnvironmentKept s t := by
  cases h; exact ⟨⟨rfl, rfl⟩, ⟨rfl, rfl, rfl⟩, ⟨fun _ => rfl, rfl⟩, ⟨rfl, rfl⟩⟩

theorem cntAfterRotate_toNat (i : Index) : (cntAfterRotate i).toNat = (i.toNat + 1) % 16 := by
  simp [cntAfterRotate]

theorem stAfterRotate_eq (i : Index) : stAfterRotate i = if i.toNat = 15 then .compose else .rotate := by
  simp [stAfterRotate, ← BitVec.toNat_inj]

/-! ### The remaining angle -/

theorem romWord_bounds (i : Index) :
    0 < sint (memRead defaultParams i) ∧ sint (memRead defaultParams i) ≤ 210828714 := by
  revert i; decide

/-- The direction of an iteration as an integer (R161). -/
def direction (z : Word) : Int := if 0 ≤ sint z then 1 else -1

/-- A subtraction in the direction of the sign is a subtraction from the absolute value. -/
theorem abs_sub_direction_mul (z : Word) (a : Int) : |sint z - direction z * a| = |(|sint z| - a)| := by
  rw [direction]
  split
  case isTrue h => rw [abs_of_nonneg h, one_mul]
  case isFalse h => rw [abs_of_neg (not_le.1 h), ← abs_neg]; ring_nf

/-- The angle update does not wrap for any angle in reach (R167 (a)). -/
theorem sint_iter_z {v : Triple} (h : |sint v.z| ≤ 467959939) (i : Index) :
    sint (iter defaultParams i v).z = sint v.z - direction v.z * sint (memRead defaultParams i) := by
  obtain ⟨pos, le⟩ := romWord_bounds i
  obtain ⟨ge, le'⟩ := abs_le.1 h
  rw [iter_eq, direction]
  apply sint_wrap32 <;> split <;> omega

theorem abs_iter_z {v : Triple} (h : |sint v.z| ≤ 467959939) (i : Index) :
    |sint (iter defaultParams i v).z| = |(|sint v.z| - sint (memRead defaultParams i))| := by
  rw [sint_iter_z h, abs_sub_direction_mul]

/-- The bound of R167 (a) holds along the whole transaction. -/
theorem abs_iterates_z_le {r : Word} (h : |sint r| ≤ 460853935) (k : Nat) :
    |sint (iterates defaultParams r k).z| ≤ 460853935 := by
  induction k with
  | zero => exact h
  | succ k ih =>
    obtain ⟨pos, le⟩ := romWord_bounds (BitVec.ofNat 4 k)
    rw [iterates_succ, abs_iter_z (by omega), abs_le]
    have := abs_nonneg (sint (iterates defaultParams r k).z)
    constructor <;> omega

theorem abs_reduce_angle_le (a : Word) : |sint (reduce defaultParams a).angle| ≤ 460853935 := by
  obtain ⟨lo, hi⟩ := (reduce_path a).range
  exact abs_le.2 ⟨lo, by omega⟩

/-- The angle that iterations `k` to 15 can turn through, and one last word: the largest angle they bring within the
last word of 0 (R167 (c)). -/
def angleReach (k : Nat) : Int :=
  ((List.range 16).filter (fun j => k ≤ j)).foldr (fun j n => sint (memRead defaultParams (BitVec.ofNat 4 j)) + n) 0
    + sint (memRead defaultParams 15#4)

theorem angleReach_zero : angleReach 0 = 467951747 + 8192 := by decide

theorem angleReach_sixteen : angleReach 16 = 8192 := by decide

/-- No angle in reach makes the angle update wrap. -/
theorem angleReach_le : ∀ k < 16, angleReach k ≤ 467959939 := by decide

theorem angleReach_succ :
    ∀ k < 16, angleReach k = sint (memRead defaultParams (BitVec.ofNat 4 k)) + angleReach (k + 1) := by decide

/-- The property of the ROM in R167 (c). -/
theorem romWord_le_angleReach_succ :
    ∀ k < 16, sint (memRead defaultParams (BitVec.ofNat 4 k)) ≤ angleReach (k + 1) := by decide

/-- The convergence of CORDIC: iteration `k` subtracts its word from the absolute value, and either what is left or what
it overshoots is in the reach of the later ones. -/
theorem abs_iterates_z_le_angleReach {r : Word} (h : |sint r| ≤ 467951747 + 8192) {k : Nat} (hk : k ≤ 16) :
    |sint (iterates defaultParams r k).z| ≤ angleReach k := by
  induction k with
  | zero => exact angleReach_zero ▸ h
  | succ k ih =>
    have inReach := ih (by omega)
    have le := angleReach_le k (by omega)
    obtain ⟨pos, -⟩ := romWord_bounds (BitVec.ofNat 4 k)
    have overshoot := romWord_le_angleReach_succ k (by omega)
    have next := angleReach_succ k (by omega)
    have := abs_nonneg (sint (iterates defaultParams r k).z)
    rw [iterates_succ, abs_iter_z (by omega), abs_le]
    omega

theorem abs_engine_z_le {r : Word} (h : |sint r| ≤ 467951747 + 8192) : |sint (engine defaultParams r).z| ≤ 8192 := by
  rw [engine_eq, ← angleReach_sixteen]
  exact abs_iterates_z_le_angleReach h le_rfl

/-! ### The vector -/

/-- The vector update does not wrap within the bound of R167 (b), at any parameters. -/
theorem sint_iter_xy {v : Triple} (hx : |sint v.x| < 2 ^ 28 + 64) (hy : |sint v.y| < 2 ^ 28 + 64) (p : Params)
    (i : Index) :
    sint (iter p i v).x = sint v.x - direction v.z * (sint v.y / 2 ^ i.toNat) ∧
      sint (iter p i v).y = sint v.y + direction v.z * (sint v.x / 2 ^ i.toNat) := by
  have quotientX := abs_le.1 ((Int.abs_ediv_le_abs (sint v.x) (2 ^ i.toNat)).trans hx.le)
  have quotientY := abs_le.1 ((Int.abs_ediv_le_abs (sint v.y) (2 ^ i.toNat)).trans hy.le)
  rw [abs_lt] at hx hy
  rw [iter_eq, direction]
  constructor <;> apply sint_wrap32 <;> split <;> omega

/-- The vector in the plane. -/
def Triple.toComplex (v : Triple) : ℂ := ⟨sint v.x, sint v.y⟩

theorem Triple.abs_x_le (v : Triple) : |(sint v.x : ℝ)| ≤ ‖v.toComplex‖ := Complex.abs_re_le_norm v.toComplex

theorem Triple.abs_y_le (v : Triple) : |(sint v.y : ℝ)| ≤ ‖v.toComplex‖ := Complex.abs_im_le_norm v.toComplex

/-- The complex number `1 + d · 2^-i · √-1` by which iteration `i` multiplies the vector, but for the floors. -/
noncomputable def rotor (z : Word) (i : ℕ) : ℂ := ⟨1, direction z * 2⁻¹ ^ i⟩

theorem abs_direction (z : Word) : |direction z| = 1 := by
  rw [direction]; split <;> rfl

theorem norm_direction (z : Word) : ‖(direction z : ℂ)‖ = 1 := by
  rw [Complex.norm_intCast]
  exact_mod_cast abs_direction z

theorem norm_rotor (z : Word) (i : ℕ) : ‖rotor z i‖ = Real.sqrt (1 + (2 : ℝ)⁻¹ ^ (2 * i)) := by
  have square : (direction z : ℝ) * direction z = 1 := by
    exact_mod_cast show direction z * direction z = 1 by rw [← abs_mul_abs_self, abs_direction, one_mul]
  rw [Complex.norm_def, Complex.normSq_apply, rotor, mul_mul_mul_comm, square, ← pow_add, two_mul, one_mul, one_mul]

/-- What the floor of a shift adds to the exact quotient (R164). -/
noncomputable def floorError (n : Int) (i : ℕ) : ℝ := ((n / 2 ^ i : Int) : ℝ) - n * 2⁻¹ ^ i

theorem abs_floorError_le (n : Int) (i : ℕ) : |floorError n i| ≤ 1 := by
  have floor : ⌊(n : ℝ) / (2 ^ i : ℕ)⌋ = n / 2 ^ i := by
    rw [Int.floor_div_natCast, Int.floor_intCast]; push_cast; rfl
  have quotient : (n : ℝ) * 2⁻¹ ^ i = n / (2 ^ i : ℕ) := by
    rw [inv_pow, div_eq_mul_inv]; push_cast; rfl
  have le := Int.floor_le ((n : ℝ) / (2 ^ i : ℕ))
  have lt := Int.lt_floor_add_one ((n : ℝ) / (2 ^ i : ℕ))
  rw [floorError, quotient, ← floor]
  exact abs_le.2 ⟨by linarith, by linarith⟩

theorem norm_le_sqrt_two {z : ℂ} (hre : |z.re| ≤ 1) (him : |z.im| ≤ 1) : ‖z‖ ≤ Real.sqrt 2 :=
  calc
    ‖z‖ ≤ Real.sqrt 2 * max |z.re| |z.im| := Complex.norm_le_sqrt_two_mul_max z
    _ ≤ Real.sqrt 2 := mul_le_of_le_one_right (Real.sqrt_nonneg 2) (max_le hre him)

section Vector
variable {v : Triple} (hx : |sint v.x| < 2 ^ 28 + 64) (hy : |sint v.y| < 2 ^ 28 + 64) (p : Params) (i : Index)
include hx hy

/-- One iteration is the multiplication by its rotor, and the errors of the two floors. -/
theorem toComplex_iter :
    (iter p i v).toComplex = rotor v.z i.toNat * v.toComplex +
      direction v.z * ⟨-floorError (sint v.y) i.toNat, floorError (sint v.x) i.toNat⟩ := by
  obtain ⟨x, y⟩ := sint_iter_xy hx hy p i
  refine Complex.ext ?re ?im
  case re =>
    simp only [Triple.toComplex, rotor, floorError, x, Complex.add_re, Complex.mul_re, Complex.intCast_re,
      Complex.intCast_im]
    push_cast
    ring
  case im =>
    simp only [Triple.toComplex, rotor, floorError, y, Complex.add_im, Complex.mul_im, Complex.intCast_re,
      Complex.intCast_im]
    push_cast
    ring

/-- One iteration multiplies the length by at most its gain, and adds at most `√2` (R167 (b)). -/
theorem norm_iter_le :
    ‖(iter p i v).toComplex‖ ≤ Real.sqrt (1 + (2 : ℝ)⁻¹ ^ (2 * i.toNat)) * ‖v.toComplex‖ + Real.sqrt 2 := by
  rw [toComplex_iter hx hy]
  refine (norm_add_le _ _).trans ?_
  rw [norm_mul, norm_mul, norm_rotor, norm_direction, one_mul]
  gcongr
  exact norm_le_sqrt_two (by simpa using abs_floorError_le ..) (abs_floorError_le ..)

end Vector

/-- The gain of the first `k` iterations (42_gain_correction.md R142). -/
noncomputable def gain (k : ℕ) : ℝ := ∏ i ∈ Finset.range k, Real.sqrt (1 + (2 : ℝ)⁻¹ ^ (2 * i))

theorem gain_succ (k : ℕ) : gain (k + 1) = Real.sqrt (1 + (2 : ℝ)⁻¹ ^ (2 * k)) * gain k := by
  rw [gain, Finset.prod_range_succ, mul_comm, gain]

theorem gain_pos (k : ℕ) : 0 < gain k := Finset.prod_pos fun _ _ => by positivity

theorem gain_monotone : Monotone gain := by
  refine monotone_nat_of_le_succ fun k => ?_
  rw [gain_succ]
  exact le_mul_of_one_le_left (gain_pos k).le (Real.one_le_sqrt.2 (by simp))

theorem one_le_gain (k : ℕ) : 1 ≤ gain k :=
  calc
    1 = gain 0 := by simp [gain]
    _ ≤ gain k := gain_monotone k.zero_le

theorem gain_sixteen_le : gain 16 ≤ 2 := by
  rw [gain, prod_sqrt_eq_sqrt_gainSquared, Real.sqrt_le_left (by norm_num)]
  exact_mod_cast (show gainSquared 16 ≤ 2 ^ 2 by norm_num [gainSquared, Finset.prod_range_succ])

/-- `K_Q` times the gain of sixteen iterations is `2^28`, but for the rounding of `K_Q`. -/
theorem gain_sixteen_mul_kQ_le : gain 16 * sint defaultParams.kQ ≤ 2 ^ 28 + 1 := by
  have rounding : |(sint defaultParams.kQ : ℝ) - (gain 16)⁻¹ * 2 ^ 28| ≤ 1 / 2 :=
    Proofs.gainConstantIsTheRoundedReciprocalGain
  calc
    gain 16 * sint defaultParams.kQ ≤ gain 16 * ((gain 16)⁻¹ * 2 ^ 28 + 1 / 2) :=
      mul_le_mul_of_nonneg_left (by linarith [(abs_le.1 rounding).2]) (gain_pos 16).le
    _ = 2 ^ 28 + gain 16 * (1 / 2) := by rw [mul_add, mul_inv_cancel_left₀ (gain_pos 16).ne']
    _ ≤ 2 ^ 28 + 1 := by linarith [gain_sixteen_le]

/-- The bound on the vector after `k` iterations: each adds at most `√2`, which the later ones enlarge no more than the
whole gain does (R167 (b)). -/
noncomputable def vectorBound (k : ℕ) : ℝ := gain k * (sint defaultParams.kQ + k * Real.sqrt 2)

theorem vectorBound_step (k : ℕ) :
    Real.sqrt (1 + (2 : ℝ)⁻¹ ^ (2 * k)) * vectorBound k + Real.sqrt 2 ≤ vectorBound (k + 1) := by
  have added : Real.sqrt 2 ≤ gain (k + 1) * Real.sqrt 2 :=
    le_mul_of_one_le_left (Real.sqrt_nonneg 2) (one_le_gain (k + 1))
  calc
    _ = gain (k + 1) * (sint defaultParams.kQ + k * Real.sqrt 2) + Real.sqrt 2 := by
      rw [vectorBound, ← mul_assoc, ← gain_succ]
    _ ≤ gain (k + 1) * (sint defaultParams.kQ + k * Real.sqrt 2) + gain (k + 1) * Real.sqrt 2 := by gcongr
    _ = vectorBound (k + 1) := by rw [vectorBound]; push_cast; ring

theorem vectorBound_lt {k : ℕ} (hk : k ≤ 16) : vectorBound k < 2 ^ 28 + 64 := by
  have := Real.sqrt_two_lt_three_halves
  have kQ := gain_sixteen_mul_kQ_le
  calc
    vectorBound k ≤ gain 16 * (sint defaultParams.kQ + 16 * Real.sqrt 2) := by
      have := gain_monotone hk
      have : (k : ℝ) ≤ 16 := by exact_mod_cast hk
      rw [vectorBound, sint_defaultParams_kQ]
      gcongr
      exact (gain_pos 16).le
    _ = gain 16 * sint defaultParams.kQ + gain 16 * (16 * Real.sqrt 2) := mul_add ..
    _ ≤ (2 ^ 28 + 1) + 2 * (16 * (3 / 2)) := by gcongr; exact gain_sixteen_le
    _ < 2 ^ 28 + 64 := by norm_num

/-- A vector no longer than a bound of R167 (b) has coordinates inside the range. -/
theorem Triple.abs_xy_lt {v : Triple} {k : ℕ} (hk : k ≤ 16) (h : ‖v.toComplex‖ ≤ vectorBound k) :
    |sint v.x| < 2 ^ 28 + 64 ∧ |sint v.y| < 2 ^ 28 + 64 := by
  have lt := h.trans_lt (vectorBound_lt hk)
  have x := v.abs_x_le.trans_lt lt
  have y := v.abs_y_le.trans_lt lt
  exact ⟨by exact_mod_cast x, by exact_mod_cast y⟩

theorem toNat_ofNat_index {k : Nat} (hk : k < 16) : (BitVec.ofNat 4 k).toNat = k := by
  rw [BitVec.toNat_ofNat, Nat.mod_eq_of_lt hk]

theorem norm_iterates_le (r : Word) {k : Nat} (hk : k ≤ 16) :
    ‖(iterates defaultParams r k).toComplex‖ ≤ vectorBound k := by
  induction k with
  | zero => simp [vectorBound, gain, startVector, Triple.toComplex, Complex.norm_def, Complex.normSq_apply]
  | succ k ih =>
    have before := ih (by omega)
    obtain ⟨x, y⟩ := Triple.abs_xy_lt (by omega) before
    have step := norm_iter_le x y defaultParams (BitVec.ofNat 4 k)
    rw [toNat_ofNat_index (by omega)] at step
    calc
      _ ≤ Real.sqrt (1 + (2 : ℝ)⁻¹ ^ (2 * k)) * ‖(iterates defaultParams r k).toComplex‖ + Real.sqrt 2 := step
      _ ≤ Real.sqrt (1 + (2 : ℝ)⁻¹ ^ (2 * k)) * vectorBound k + Real.sqrt 2 := by gcongr
      _ ≤ vectorBound (k + 1) := vectorBound_step k

theorem abs_iterates_xy_lt (r : Word) {k : Nat} (hk : k ≤ 16) :
    |sint (iterates defaultParams r k).x| < 2 ^ 28 + 64 ∧ |sint (iterates defaultParams r k).y| < 2 ^ 28 + 64 :=
  Triple.abs_xy_lt hk (norm_iterates_le r hk)

end Sys2Proof.Machine

namespace Sys2Proof.Proofs
open Sys2Proof.Machine

/-- Settles O5: the row of the opcode table, the iteration in integers, the position after it, and the frame. -/
theorem rotatePerformsOneIteration : Obligations.RotatePerformsOneIteration := by
  refine ⟨decode_eq_rotate_iff, fun s i => ⟨_, exec_next (.rotate i) s, ?_⟩⟩
  refine ⟨?x, ?y, ?z, cntAfterRotate_toNat i, stAfterRotate_eq i, rfl, exec_rotate_frame (exec_next (.rotate i) s)⟩
  case x => exact congrArg Triple.x (iter_eq s.params i s.vector)
  case y => exact congrArg Triple.y (iter_eq s.params i s.vector)
  case z => exact congrArg Triple.z (iter_eq s.params i s.vector)

/-- Settles O31: the mask of the direction is 0 or all ones, and with either the variant adds what the iteration adds. -/
theorem branchFreeVariantAgrees : Obligations.BranchFreeVariantAgrees :=
  ⟨fun v => ⟨xorNegate_zero v, by rw [xorNegate_allOnes, wrap32_neg, wrap32_sint]⟩, iterXor_eq_iter⟩

/-- Settles O32: the reduced angle is in range, and no iteration leaves the range. -/
theorem remainingAngleNeverWraps : Obligations.RemainingAngleNeverWraps := by
  intro a k _
  have bound := abs_iterates_z_le (abs_reduce_angle_le a) k
  exact ⟨bound, fun _ => sint_iter_z (bound.trans (by norm_num)) _⟩

/-- Settles O33: the Euclidean length of the vector bounds both coordinates, for any start angle. -/
theorem vectorNeverWraps : Obligations.VectorNeverWraps := by
  intro a k hk
  obtain ⟨x, y⟩ := abs_iterates_xy_lt (reduce defaultParams a).angle hk
  refine ⟨x, y, fun hk' => ?_⟩
  have update := sint_iter_xy x y defaultParams (BitVec.ofNat 4 k)
  rwa [toNat_ofNat_index hk'] at update

/-- Settles O34: the reach of the remaining iterations is an invariant; a reduced angle is in the whole reach. -/
theorem residualAngleIsAtMostTheLastWord : Obligations.ResidualAngleIsAtMostTheLastWord :=
  ⟨romWord_le_angleReach_succ, fun _ => abs_engine_z_le,
    fun a => abs_engine_z_le ((abs_reduce_angle_le a).trans (by norm_num))⟩

/-- Settles O30: the value is the floor, and the bits are those of an arithmetic shift. -/
theorem shiftRoundsTowardMinusInfinity : Obligations.ShiftRoundsTowardMinusInfinity :=
  fun v i => ⟨sint_asr v i.toNat, fun _ => getLsbD_asr v i.toNat⟩

end Sys2Proof.Proofs
end

section
/-! The output composer (44_output_composer.md): COMPOSE and its frame (R180), and where its negation is exact (R181). -/

namespace Sys2Proof.Machine

theorem composeCos_eq (neg : Bool) (x : Word) : composeCos neg x = if neg then -x else x := by
  cases neg with
  | true => exact composeCos_true x
  | false => rfl

/-- The one word whose negation is not in the 32-bit range is the least. -/
theorem sint_composeCos_true {x : Word} (h : sint x ≠ -2147483648) : sint (composeCos true x) = -sint x := by
  have ge := sint_ge x
  have lt := sint_lt x
  rw [composeCos_true, ← wrap32_zero_sub, sint_wrap32 (by omega) (by omega), zero_sub]

theorem decode_eq_compose_iff (c : ControlWord) : decode c = .compose ↔ c &&& 0xB0#8 = 0x20#8 := by
  revert c; decide

theorem exec_compose_frame {s t : State} (h : exec .compose s = .next t) :
    VectorKept s t ∧ SignsKept s t ∧ BuildKept s t ∧ EnvironmentKept s t := by
  cases h; exact ⟨⟨rfl, rfl, rfl⟩, ⟨rfl, rfl⟩, ⟨fun _ => rfl, rfl⟩, ⟨rfl, rfl⟩⟩

end Sys2Proof.Machine

namespace Sys2Proof.Proofs
open Sys2Proof.Machine

/-- Settles O35: the vector stays inside the range of R167 (b), so its `x` is never the least word. -/
theorem composedNegationIsExact : Obligations.ComposedNegationIsExact := by
  refine ⟨fun a => ?reached, fun _ => rfl, by decide⟩
  obtain ⟨bound, -⟩ := abs_iterates_xy_lt (reduce defaultParams a).angle (le_refl 16)
  rw [← engine_eq] at bound
  exact ⟨bound, sint_composeCos_true (by rw [abs_lt] at bound; omega)⟩

/-- Settles O6: the row of the opcode table, the registers COMPOSE writes, and its frame. -/
theorem composePublishesTheResult : Obligations.ComposePublishesTheResult :=
  ⟨decode_eq_compose_iff, fun s =>
    ⟨_, exec_next .compose s, composeCos_eq s.cneg s.x, rfl, rfl, rfl, rfl, rfl, rfl,
      exec_compose_frame (exec_next .compose s)⟩⟩

end Sys2Proof.Proofs
end

section
/-! Exceptions (60_exceptions.md): a run of IDLE_HOLD edges (R212), the domain flag of a transaction (R201), and a run
that begins with a RESET edge and is given no request (R205, R206). -/

namespace Sys2Proof.Machine

/-! ### Holding in IDLE -/

/-- The registers and the build of `s`, driven as `e` is. -/
def State.inEnvironmentOf (s e : State) : State := { s with stimulus := e.stimulus, undriven := e.undriven }

/-- The passing of an edge touches nothing else. -/
theorem State.afterEdge_eq_inEnvironmentOf (s : State) : s.afterEdge = s.inEnvironmentOf s.afterEdge := by
  unfold State.afterEdge; split <;> rfl

/-- `k` edges of IDLE_HOLD do to the registers what one does, and none does nothing. -/
theorem edges_idleHold {k : Nat} {s : State} (hq : s.st = .idle)
    (hi : ∀ j < k, (s.inputAt j).rst = false ∧ (s.inputAt j).start = false) :
    ∃ u, edges k s = .next u ∧ u = (s.setDone (if k = 0 then s.done else false)).inEnvironmentOf u := by
  induction k with
  | zero => exact ⟨s, rfl, rfl⟩
  | succ k ih =>
    obtain ⟨t, ht, held⟩ := ih fun j hj => hi j (by omega)
    have idle : t.st = .idle := (congrArg State.st held).trans hq
    have pins : t.pins = s.inputAt k := edges_inputAt ht 0
    obtain ⟨rst, start⟩ := hi k (by omega)
    rw [← pins] at rst start
    refine ⟨(t.setDone false).afterEdge, edges_snoc ht (step_idleHold rst idle start), ?_⟩
    have overwritten : t.setDone false = (s.setDone false).inEnvironmentOf t := congrArg (State.setDone · false) held
    rw [State.afterEdge_eq_inEnvironmentOf, overwritten]; rfl

/-! ### The domain flag -/

/-- The bounds of the domain at the default `TWO_PI_Q`, whatever the other parameters are. -/
theorem domainErr_iff_of_default_twoPiQ {p : Params} (hp : p.twoPiQ = defaultParams.twoPiQ) (a : Word) :
    domainErr p a = true ↔ a.toInt < -1686629713 ∨ 1686629713 < a.toInt := by
  rw [domainErr_iff, hp, sint_defaultParams_twoPiQ]

theorem step_domErr {s u : State} (h : step s = .next u) (hcompose : s.op ≠ .compose) (hreset : s.op ≠ .reset) :
    u.domErr = s.domErr :=
  congrArg Result.err (step_done_result h hreset hcompose).2

section DomainFlag
variable {s : State} {a : Word}

/-- Before its COMPOSE edge a transaction leaves the previous flag visible. -/
theorem edges_domErr {k : Nat} (hs : Accepts s a) (hk : k ≤ 17) (hr : NoReset k s) :
    ∃ u, edges k s = .next u ∧ u.domErr = s.domErr := by
  cases k with
  | zero => exact ⟨s, rfl, rfl⟩
  | succ k =>
    obtain ⟨u, hu⟩ := edges_next (k + 1) s
    exact ⟨u, hu, congrArg Result.err (edges_done_result hs (by omega) hr hu).2⟩

theorem edges_one_derr (hs : Accepts s a) (hr : NoReset 1 s) :
    ∃ u, edges 1 s = .next u ∧ u.derr = domainErr s.params a := by
  obtain ⟨u, hu, iteration⟩ := edges_atIteration hs (Nat.zero_le 15) hr
  rw [← edges_params hu]
  exact ⟨u, hu, iteration.inFlight.derr⟩

end DomainFlag

/-! ### After a RESET edge -/

section AtReset
variable {s u : State}

theorem RegistersAtReset.afterEdge (hs : RegistersAtReset s) : RegistersAtReset s.afterEdge := by
  unfold State.afterEdge; split <;> exact { hs with }

/-- IDLE_HOLD has nothing to clear. -/
theorem RegistersAtReset.setDone_false (hs : RegistersAtReset s) : s.setDone false = s := by
  rw [← hs.done]; rfl

/-- An edge with no request, or with a reset, keeps the reset values. -/
theorem RegistersAtReset.next (hs : RegistersAtReset s) (hi : s.pins.rst = true ∨ s.pins.start = false)
    (h : step s = .next u) : RegistersAtReset u := by
  cases hr : s.pins.rst with
  | true =>
    rw [step_reset hr] at h
    cases h
    exact s.clearRegisters_atReset.afterEdge
  | false =>
    rw [step_idleHold hr hs.st (hi.resolve_left (by simp [hr])), hs.setDone_false] at h
    cases h
    exact hs.afterEdge

theorem edges_atReset {k : Nat} (hr : s.pins.rst = true)
    (hi : ∀ j, 1 ≤ j → j ≤ k → (s.inputAt j).rst = true ∨ (s.inputAt j).start = false) :
    ∃ u, edges (k + 1) s = .next u ∧ RegistersAtReset u := by
  induction k with
  | zero => exact ⟨_, edges_snoc (edges_zero s) (step_reset hr), s.clearRegisters_atReset.afterEdge⟩
  | succ k ih =>
    obtain ⟨t, ht, atReset⟩ := ih fun j lo hj => hi j lo (by omega)
    obtain ⟨u, -, hu⟩ := step_exec_op t
    have pins : t.pins = s.inputAt (k + 1) := edges_inputAt ht 0
    exact ⟨u.afterEdge, edges_snoc ht hu, atReset.next (by rw [pins]; exact hi (k + 1) (by omega) le_rfl) hu⟩

end AtReset

end Sys2Proof.Machine

namespace Sys2Proof.Proofs
open Sys2Proof.Machine

/-- Settles O21: the run is `s` with `done` written and other inputs ahead; every register is read off that state. -/
theorem idleHoldsEveryRegisterButDone : Obligations.IdleHoldsEveryRegisterButDone := by
  intro k s hq hi
  obtain ⟨u, hu, held⟩ := edges_idleHold hq hi
  refine ⟨u, hu, ?_⟩
  rw [held]
  exact ⟨hq, rfl, ⟨rfl, rfl, rfl⟩, ⟨rfl, rfl⟩, ⟨rfl, rfl, rfl⟩, ⟨fun _ => rfl, rfl⟩, rfl⟩

/-- Settles O39: the writers of the result; the flag LOAD derives from the angle; and `CORDIC_FN`, whose flag it is. -/
theorem domainViolationIsReportedWithTheResult : Obligations.DomainViolationIsReportedWithTheResult := by
  refine ⟨fun _ _ => step_domErr, fun s a hs hr hp => ⟨fun k hk => edges_domErr hs hk (hr.mono (by omega)), ?load,
    ?compose⟩⟩
  case load =>
    obtain ⟨u, hu, derr⟩ := edges_one_derr hs (hr.mono (by omega))
    exact ⟨u, hu, by rw [derr, domainErr_iff_of_default_twoPiQ hp]⟩
  case compose =>
    obtain ⟨u, hu, -, -, -, result⟩ := edges_transaction hs hr
    have domErr : u.domErr = domainErr s.params a := congrArg Result.err result
    exact ⟨u, hu, by rw [domErr, domainErr_iff_of_default_twoPiQ hp], congrArg Result.cos result,
      congrArg Result.sin result⟩

/-- Settles O48: the RESET edge leaves the reset values, and each later edge is RESET or IDLE_HOLD, which keep them. -/
theorem resetDiscardsTheTransaction : Obligations.ResetDiscardsTheTransaction := fun _ _ => edges_atReset

end Sys2Proof.Proofs
end

section
/-! Reset and hazards (70_reset_and_hazards.md): the RESET edge (R220), the way back to IDLE from any position (R221), a
transaction begun after some run (R222), and transactions one after another (R227). -/

namespace Sys2Proof.Machine

/-! ### The RESET edge -/

theorem decode_eq_reset_iff (c : ControlWord) : decode c = .reset ↔ c &&& 0x80#8 = 0x80#8 := by
  revert c; decide

theorem step_atReset {s : State} (hr : s.pins.rst = true) :
    ∃ u, step s = .next u ∧ RegistersAtReset u ∧ BuildKept s u := by
  have params : s.clearRegisters.afterEdge.params = s.params := State.afterEdge_params _
  exact ⟨_, step_reset hr, s.clearRegisters_atReset.afterEdge, fun _ => by rw [params], params⟩

/-! ### The way back to IDLE -/

/-- How many edges without a reset lead from a sequencer position to IDLE. -/
def edgesToIdle : SeqState → Index → Nat
  | .idle, _ => 0
  | .rotate, n => 17 - n.toNat
  | .compose, _ => 1
  | .illegal, _ => 1

theorem edgesToIdle_le (q : SeqState) (n : Index) : edgesToIdle q n ≤ 17 := by
  cases q <;> simp [edgesToIdle]

theorem edgesToIdle_eq_zero_iff (q : SeqState) (n : Index) : edgesToIdle q n = 0 ↔ q = .idle := by
  cases q with
  | rotate => simp only [edgesToIdle, reduceCtorEq, iff_false]; omega
  | idle | compose | illegal => simp [edgesToIdle]

theorem edgesToIdle_afterRotate (n : Index) :
    edgesToIdle (stAfterRotate n) (cntAfterRotate n) + 1 = edgesToIdle .rotate n := by
  revert n; decide

/-- Outside IDLE every edge without a reset is one edge of the way. -/
theorem step_edgesToIdle {s u : State} (hq : s.st ≠ .idle) (hr : s.pins.rst = false) (h : step s = .next u) :
    edgesToIdle u.st u.cnt + 1 = edgesToIdle s.st s.cnt := by
  cases st : s.st with
  | idle => exact absurd st hq
  | rotate =>
    rw [step_rotate hr st] at h
    cases h
    simpa using edgesToIdle_afterRotate s.cnt
  | compose =>
    rw [step_compose hr st] at h
    cases h
    simp [edgesToIdle]
  | illegal =>
    rw [step_illegal hr st] at h
    cases h
    simp [edgesToIdle]

/-- The span without a reset, seen after the first edges of it. -/
theorem NoReset.after {k n : Nat} {s u : State} (h : NoReset (k + n) s) (hu : edges k s = .next u) : NoReset n u := by
  intro j hj
  rw [edges_inputAt hu]
  exact h (k + j) (by omega)

theorem edges_edgesToIdle {k : Nat} {s : State} (hk : edgesToIdle s.st s.cnt = k) (hr : NoReset k s) :
    ∃ u, edges k s = .next u ∧ u.st = .idle := by
  induction k generalizing s with
  | zero => exact ⟨s, rfl, (edgesToIdle_eq_zero_iff _ _).1 hk⟩
  | succ k ih =>
    have busy : s.st ≠ .idle := fun idle => by simp [(edgesToIdle_eq_zero_iff _ s.cnt).2 idle] at hk
    obtain ⟨t, -, ht⟩ := step_exec_op s
    have shorter := step_edgesToIdle busy (hr 0 (by omega)) ht
    rw [edges_succ ht]
    exact ih (by omega) (NoReset.after (k := 1) (by rwa [Nat.add_comm]) (edges_succ ht 0))

/-! ### A transaction after a run -/

section AfterRun
variable {m : Nat} {s t : State}

theorem accepts_after (ht : edges m s = .next t) (idle : t.st = .idle) (rst : (s.inputAt m).rst = false)
    (start : (s.inputAt m).start = true) : Accepts t (s.inputAt m).angleIn := by
  have pins : t.pins = s.inputAt m := edges_inputAt ht 0
  rw [← pins] at rst start ⊢
  exact ⟨idle, rst, start, rfl⟩

/-- A request at an IDLE cycle of a run: 18 edges more publish its result. -/
theorem edges_transaction_after (ht : edges m s = .next t) (idle : t.st = .idle)
    (start : (s.inputAt m).start = true) (hr : ∀ j < 18, (s.inputAt (m + j)).rst = false) :
    ∃ u, edges (m + 18) s = .next u ∧ u.st = .idle ∧ u.done = true ∧
      u.result = cordicFn s.params (s.inputAt m).angleIn := by
  have noReset : NoReset 18 t := fun j hj => by rw [edges_inputAt ht]; exact hr j hj
  obtain ⟨u, hu, st, -, done, result⟩ := edges_transaction (accepts_after ht idle (hr 0 (by omega)) start) noReset
  rw [edges_add ht, ← edges_params ht]
  exact ⟨u, hu, st, done, result⟩

end AfterRun

/-- Whole transactions of a held `start` lead from IDLE to IDLE. -/
theorem edges_heldStart_idle {n : Nat} {s : State} (hq : s.st = .idle)
    (hi : ∀ j < 18 * n, (s.inputAt j).rst = false ∧ (s.inputAt j).start = true) :
    ∃ t, edges (18 * n) s = .next t ∧ t.st = .idle := by
  induction n with
  | zero => exact ⟨s, rfl, hq⟩
  | succ n ih =>
    obtain ⟨t, ht, idle⟩ := ih fun j hj => hi j (by omega)
    obtain ⟨u, hu, idle', -⟩ := edges_transaction_after ht idle (hi _ (by omega)).2 fun j hj => (hi _ (by omega)).1
    exact ⟨u, hu, idle'⟩

end Sys2Proof.Machine

namespace Sys2Proof.Proofs
open Sys2Proof.Machine

/-- Settles O2: the row of the opcode table; `exec` clears every register and touches nothing else; and `rst` alone
selects RESET. -/
theorem resetClearsEveryRegister : Obligations.ResetClearsEveryRegister :=
  ⟨decode_eq_reset_iff,
    fun s => ⟨s.clearRegisters, rfl, s.clearRegisters_atReset, ⟨fun _ => rfl, rfl⟩, ⟨rfl, rfl⟩⟩, fun _ => step_atReset⟩

/-- Settles O45: the distance to IDLE is at most 17 edges, and each edge without a reset shortens it by one. -/
theorem idleIsReachedWithinSeventeenEdges : Obligations.IdleIsReachedWithinSeventeenEdges := by
  refine ⟨fun s hr => ?idle, fun s hr => ?reset⟩
  case idle =>
    have within := edgesToIdle_le s.st s.cnt
    exact ⟨_, within, edges_edgesToIdle rfl (hr.mono within)⟩
  case reset =>
    obtain ⟨u, hu, atReset, -⟩ := step_atReset hr
    exact ⟨u, hu, atReset⟩

/-- Settles O47: a RESET edge and edges without a request leave the reset values, IDLE among them, where the request is
accepted. -/
theorem firstTransactionAfterReset : Obligations.FirstTransactionAfterReset := by
  intro s n a rst waiting start angle noReset
  obtain ⟨t, ht, atReset⟩ := edges_atReset rst fun j lo hj => .inr (waiting j lo hj).2
  have accepts := accepts_after ht atReset.st (noReset _ le_rfl (by omega)) start
  obtain ⟨u, hu, -, done, result⟩ :=
    edges_transaction_after ht atReset.st start fun j hj => noReset _ (by omega) (by omega)
  rw [angle] at result
  exact ⟨⟨t, ht, atReset, accepts.op⟩, u, hu, done, result⟩

/-- Settles O40: the first `n` transactions lead back to IDLE, where the request of the last one is accepted. -/
theorem heldStartRunsBackToBack : Obligations.HeldStartRunsBackToBack := by
  intro n s hq hi
  obtain ⟨t, ht, idle⟩ := edges_heldStart_idle (n := n) hq fun j hj => hi j (by omega)
  exact edges_transaction_after (m := 18 * n) ht idle (hi _ (by omega)).2 fun j hj => (hi _ (by omega)).1

end Sys2Proof.Proofs
end

section
/-! The text of stimulus programs (30_encoding.md R77, R78): a printed number reads back, digit by digit; a printed line
splits into its words, and a printed program into its lines. -/

namespace Sys2Proof.Machine

/-! ### The characters of a word -/

/-- The characters that end a word: the blanks, the start of a comment and the line end (log 9). -/
def separators : List Char := [' ', '\t', '\r', ';', '\n']

/-- A character that no reader splits at. -/
def isWordChar (c : Char) : Bool := !separators.contains c

theorem isWordChar_iff (c : Char) : isWordChar c = true ↔ isBlank c = false ∧ c ≠ ';' ∧ c ≠ '\n' := by
  simp [isWordChar, separators, isBlank, and_assoc]

/-- A word of a line, as `splitWords` returns it. -/
structure IsWord (w : List Char) : Prop where
  nonempty : w ≠ []
  chars    : ∀ c ∈ w, isWordChar c = true

theorem isWord_of_all {w : List Char} (h : (!w.isEmpty && w.all isWordChar) = true) : IsWord w := by
  obtain ⟨nonempty, chars⟩ := Bool.and_eq_true_iff.1 h
  exact ⟨by simpa using nonempty, List.all_eq_true.1 chars⟩

theorem IsWord.newline_notMem {w : List Char} (hw : IsWord w) : '\n' ∉ w := fun h =>
  absurd (hw.chars _ h) (by decide)

/-- The separators, and the two characters a literal holds beside digits, are digits in no base. -/
theorem digitValue_eq_none (base : Nat) : ∀ c ∈ 'x' :: '-' :: separators, digitValue base c = none := by
  simp [separators, digitValue]

theorem isWordChar_of_digitValue {base d : Nat} {c : Char} (h : digitValue base c = some d) : isWordChar c = true := by
  by_contra separator
  have mem : c ∈ separators := by simpa [isWordChar] using separator
  simp [digitValue_eq_none base c (by simp [mem])] at h

/-! ### Numbers -/

section Digits
variable {base acc m d : Nat} {c : Char} {cs : List Char}

theorem readDigits_cons (h : digitValue base c = some d) :
    readDigits base acc (c :: cs) = readDigits base (acc * base + d) cs := by
  simp [readDigits, h]

/-- The last digit is the least significant. -/
theorem readDigits_concat (h : readDigits base acc cs = some m) (hd : digitValue base c = some d) :
    readDigits base acc (cs ++ [c]) = some (m * base + d) := by
  induction cs generalizing acc with
  | nil =>
    cases h
    rw [List.nil_append, readDigits_cons hd, readDigits]
  | cons c' cs ih =>
    cases hc : digitValue base c' with
    | none => simp [readDigits, hc] at h
    | some d' =>
      rw [readDigits_cons hc] at h
      rw [List.cons_append, readDigits_cons hc, ih h]

/-- Whatever is read as a number holds nothing but digits. -/
theorem digitValue_of_mem (h : readDigits base acc cs = some m) (hc : c ∈ cs) : ∃ d, digitValue base c = some d := by
  induction cs generalizing acc with
  | nil => simp at hc
  | cons c' cs ih =>
    cases hd : digitValue base c' with
    | none => simp [readDigits, hd] at h
    | some d =>
      rw [readDigits_cons hd] at h
      obtain rfl | hc := List.mem_cons.1 hc
      · exact ⟨d, hd⟩
      · exact ih h hc

theorem notMem_of_readDigits (h : readDigits base acc cs = some m) (hc : digitValue base c = none) : c ∉ cs :=
  fun mem => by
    obtain ⟨d, hd⟩ := digitValue_of_mem h mem
    simp [hc] at hd

theorem isWordChar_of_readDigits (h : readDigits base acc cs = some m) : ∀ c ∈ cs, isWordChar c = true :=
  fun _ hc => isWordChar_of_digitValue (digitValue_of_mem h hc).choose_spec

end Digits

theorem digitValue_hexDigit : ∀ d < 16, digitValue 16 (hexDigit d) = some d := by decide

theorem digitValue_digitChar : ∀ d < 10, digitValue 10 (Nat.digitChar d) = some d := by decide

theorem hexDigits_length (k n : Nat) : (hexDigits k n).length = k := by
  induction k generalizing n with
  | zero => rfl
  | succ k ih => simp [hexDigits, ih]

theorem readDigits_hexDigits (k n : Nat) : readDigits 16 0 (hexDigits k n) = some (n % 16 ^ k) := by
  induction k generalizing n with
  | zero => simp [hexDigits, readDigits, Nat.mod_one]
  | succ k ih =>
    have last := digitValue_hexDigit (n % 16) (Nat.mod_lt _ (by decide))
    rw [hexDigits, readDigits_concat (ih (n / 16)) last, Nat.pow_succ', Nat.mod_mul]
    congr 1
    ring

theorem readDigits_decDigits (n : Nat) : readDigits 10 0 (decDigits n) = some n := by
  induction n using Nat.strong_induction_on with
  | _ n ih =>
    have last := digitValue_digitChar (n % 10) (Nat.mod_lt _ (by decide))
    by_cases h : n < 10
    · rw [Nat.mod_eq_of_lt h] at last
      rw [decDigits, Nat.toDigits_of_lt_base h, readDigits_cons last, readDigits, Nat.zero_mul, Nat.zero_add]
    · have front := ih (n / 10) (by omega)
      rw [decDigits] at front ⊢
      rw [Nat.toDigits_of_base_le (by decide) (by omega), readDigits_concat front last]
      congr 1
      omega

theorem readNat_eq_readDigits {cs : List Char} (h : cs ≠ []) : readNat cs = readDigits 10 0 cs := by
  cases cs with
  | nil => exact absurd rfl h
  | cons c cs => rfl

theorem isWord_decDigits (n : Nat) : IsWord (decDigits n) :=
  ⟨Nat.toDigits_ne_nil, isWordChar_of_readDigits (readDigits_decDigits n)⟩

theorem readNat_decDigits (n : Nat) : readNat (decDigits n) = some n := by
  rw [readNat_eq_readDigits (isWord_decDigits n).nonempty, readDigits_decDigits]

/-! ### Literals -/

theorem readLiteral_hex {ds : List Char} {n : Nat} (length : ds.length = 8) (h : readDigits 16 0 ds = some n) :
    readLiteral ('0' :: 'x' :: ds) = (some (.hex n)).filter Literal.wellFormed := by
  simp [readLiteral, length, h]

theorem readLiteral_neg {ds : List Char} {n : Nat} (h : readNat ds = some n) :
    readLiteral ('-' :: ds) = (some (.dec (-n))).filter Literal.wellFormed := by
  simp [readLiteral, h]

/-- Decimal digits hold neither the `x` of a hexadecimal literal nor a sign. -/
theorem readLiteral_nat (n : Nat) : readLiteral (decDigits n) = (some (.dec n)).filter Literal.wellFormed := by
  have noX := notMem_of_readDigits (c := 'x') (readDigits_decDigits n) (digitValue_eq_none _ _ (by decide))
  have noMinus := notMem_of_readDigits (c := '-') (readDigits_decDigits n) (digitValue_eq_none _ _ (by decide))
  have number := readNat_decDigits n
  unfold readLiteral
  split
  case h_1 heq => simp [heq] at noX
  case h_2 heq => simp [heq] at noMinus
  case h_3 => rw [number]; rfl

theorem readLiteral_printLiteral {w : Literal} (hw : w.wellFormed = true) : readLiteral (printLiteral w) = some w := by
  suffices h : readLiteral (printLiteral w) = (some w).filter Literal.wellFormed by
    rw [h, Option.filter_some, if_pos hw]
  cases w with
  | hex n =>
    have bound : n < 16 ^ 8 := of_decide_eq_true hw
    refine readLiteral_hex (hexDigits_length 8 n) ?_
    rw [readDigits_hexDigits, Nat.mod_eq_of_lt bound]
  | dec v =>
    cases v with
    | ofNat n => exact readLiteral_nat n
    | negSucc n => rw [printLiteral, readLiteral_neg (readNat_decDigits (n + 1)), Int.negSucc_eq, Nat.cast_succ]

theorem isWord_printLiteral (w : Literal) : IsWord (printLiteral w) := by
  match w with
  | .hex n =>
    have digits := isWordChar_of_readDigits (readDigits_hexDigits 8 n)
    exact ⟨by simp [printLiteral], List.forall_mem_cons.2 ⟨by decide, List.forall_mem_cons.2 ⟨by decide, digits⟩⟩⟩
  | .dec (.ofNat n) => exact isWord_decDigits n
  | .dec (.negSucc n) =>
    exact ⟨by simp [printLiteral], List.forall_mem_cons.2 ⟨by decide, (isWord_decDigits (n + 1)).chars⟩⟩

/-! ### Words -/

/-- The characters of a word are read into it. -/
theorem splitWords_append {w : List Char} (hw : ∀ c ∈ w, isWordChar c = true) (cur rest : List Char) :
    splitWords cur (w ++ rest) = splitWords (cur ++ w) rest := by
  induction w generalizing cur with
  | nil => simp
  | cons c w ih =>
    obtain ⟨hc, hw⟩ := List.forall_mem_cons.1 hw
    obtain ⟨notBlank, notComment, -⟩ := (isWordChar_iff c).1 hc
    have first : splitWords cur (c :: (w ++ rest)) = splitWords (cur ++ [c]) (w ++ rest) := by
      simp [splitWords, notBlank, notComment]
    rw [List.cons_append, first, ih hw, List.append_assoc, List.singleton_append]

theorem IsWord.splitWords_self {w : List Char} (hw : IsWord w) : splitWords [] w = [w] := by
  have read := splitWords_append hw.chars [] []
  rw [List.append_nil, List.nil_append] at read
  rw [read]
  simp [splitWords, hw.nonempty]

theorem IsWord.splitWords_space {w : List Char} (hw : IsWord w) (rest : List Char) :
    splitWords [] (w ++ ' ' :: rest) = w :: splitWords [] rest := by
  rw [splitWords_append hw.chars, List.nil_append]
  simp [splitWords, isBlank, hw.nonempty]

/-! ### Lines -/

/-- A printed line is one word, or two with a space between, that read as the line. -/
theorem printLine_cases {l : Line} (hl : l.wellFormed = true) :
    (IsWord (printLine l) ∧ readWords [printLine l] = some [l]) ∨
    ∃ k w, IsWord k ∧ IsWord w ∧ printLine l = k ++ ' ' :: w ∧ readWords [k, w] = some [l] := by
  cases l with
  | reset | nop => exact .inl ⟨isWord_of_all rfl, rfl⟩
  | start w =>
    exact .inr ⟨['S', 'T', 'A', 'R', 'T'], _, isWord_of_all rfl, isWord_printLiteral w, rfl,
      by simp [readWords, readLiteral_printLiteral hl]⟩
  | poke w =>
    exact .inr ⟨['P', 'O', 'K', 'E'], _, isWord_of_all rfl, isWord_printLiteral w, rfl,
      by simp [readWords, readLiteral_printLiteral hl]⟩
  | wait n =>
    exact .inr ⟨['W', 'A', 'I', 'T'], _, isWord_of_all rfl, isWord_decDigits n, rfl, by simp [readWords, readNat_decDigits]⟩
  | run w =>
    exact .inr ⟨['R', 'U', 'N'], _, isWord_of_all rfl, isWord_printLiteral w, rfl,
      by simp [readWords, readLiteral_printLiteral hl]⟩

theorem readLine_printLine {l : Line} (hl : l.wellFormed = true) : readLine (printLine l) = some [l] := by
  obtain ⟨hw, read⟩ | ⟨k, w, hk, hw, text, read⟩ := printLine_cases hl
  · rw [readLine, hw.splitWords_self, read]
  · rw [readLine, text, hk.splitWords_space, hw.splitWords_self, read]

theorem newline_notMem_printLine {l : Line} (hl : l.wellFormed = true) : '\n' ∉ printLine l := by
  obtain ⟨hw, -⟩ | ⟨k, w, hk, hw, text, -⟩ := printLine_cases hl
  · exact hw.newline_notMem
  · simp [text, hk.newline_notMem, hw.newline_notMem]

/-! ### Programs -/

/-- The text of a program: each line ended by a line feed. -/
def printProgram (program : List Line) : List Char := program.flatMap fun l => printLine l ++ ['\n']

theorem printProgram_cons (l : Line) (program : List Line) :
    printProgram (l :: program) = printLine l ++ '\n' :: printProgram program := by
  simp [printProgram]

theorem splitLines_newline {l : List Char} (hl : '\n' ∉ l) (cur rest : List Char) :
    splitLines cur (l ++ '\n' :: rest) = (cur ++ l) :: splitLines [] rest := by
  induction l generalizing cur with
  | nil => simp [splitLines]
  | cons c l ih =>
    obtain ⟨hc, hl⟩ := List.ne_and_not_mem_of_not_mem_cons hl
    have first : splitLines cur (c :: (l ++ '\n' :: rest)) = splitLines (cur ++ [c]) (l ++ '\n' :: rest) := by
      simp [splitLines, hc.symm]
    rw [List.cons_append, first, ih hl, List.append_assoc, List.singleton_append]

theorem readLines_cons {t : List Char} {ts : List (List Char)} {ls ls' : List Line} (h : readLine t = some ls)
    (h' : readLines ts = some ls') : readLines (t :: ts) = some (ls ++ ls') := by
  simp [readLines, h, h']

theorem readProgram_printProgram {program : List Line} (hp : ∀ l ∈ program, l.wellFormed = true) :
    readProgram (printProgram program) = some program := by
  induction program with
  | nil => rfl
  | cons l program ih =>
    obtain ⟨hl, hp⟩ := List.forall_mem_cons.1 hp
    rw [readProgram, printProgram_cons, splitLines_newline (newline_notMem_printLine hl)]
    exact readLines_cons (readLine_printLine hl) (ih hp)

end Sys2Proof.Machine

namespace Sys2Proof.Proofs
open Sys2Proof.Machine

/-- Settles O14: by induction on the program; a line's text holds no line feed and reads back as the line, word by
word. -/
theorem stimulusTextReadsBack : Obligations.StimulusTextReadsBack := fun _ => readProgram_printProgram

end Sys2Proof.Proofs
end

section
/-! The invariant of every run from a RESET edge (10_state.md sections 3, 4 and 6, 40_sequencer.md sections 3 and 4):
the reset values are coherent, and every edge keeps the datapath and the published result so. -/

namespace Sys2Proof.Machine

theorem State.op_eq_reset_iff (s : State) : s.op = .reset ↔ s.pins.rst = true := by
  rw [State.op, s.decode_ctl]
  cases s.pins.rst with
  | true => simp
  | false =>
    cases s.st with
    | idle => cases s.pins.start <;> simp
    | rotate | compose | illegal => simp

section Coherence
variable {s u : State}

/-! ### Coherence, position by position -/

theorem DatapathCoherent.of_idle (hq : s.st = .idle) : DatapathCoherent s := by
  simp [DatapathCoherent, hq]

theorem datapathCoherent_rotate_iff (hq : s.st = .rotate) : DatapathCoherent s ↔ ∃ a, AtIteration s a s.cnt.toNat := by
  simp only [DatapathCoherent, hq]
  exact exists_congr fun a => ⟨fun inFlight => ⟨hq, by simp, inFlight⟩, AtIteration.inFlight⟩

theorem datapathCoherent_compose_iff (hq : s.st = .compose) : DatapathCoherent s ↔ ∃ a, InFlight s a 16 := by
  simp only [DatapathCoherent, hq]

theorem DatapathCoherent.not_illegal (hs : DatapathCoherent s) : s.st ≠ .illegal := fun hq => by
  simp [DatapathCoherent, hq] at hs

theorem AtIteration.datapathCoherent {a : Word} {k : Nat} (hs : AtIteration s a k) (hk : k < 16) :
    DatapathCoherent s := by
  have cnt : s.cnt.toNat = k := by rw [hs.cnt, toNat_ofNat_index hk]
  rw [datapathCoherent_rotate_iff hs.st, cnt]
  exact ⟨a, hs⟩

theorem RegistersAtReset.coherent (hs : RegistersAtReset s) : Coherent s where
  control := ⟨by simp [hs.st], fun _ => BitVec.eq_of_toNat_eq hs.cnt⟩
  datapath := .of_idle hs.st
  result := ⟨.inl (by simp [State.result, hs.cosOut, hs.sinOut, hs.domErr]), by simp [hs.done]⟩

/-! ### What an edge without a reset keeps -/

section Step
variable (hd : DatapathCoherent s) (hr : s.pins.rst = false) (h : step s = .next u)
include hd hr h

/-- LOAD begins a transaction, ROTATE performs the iteration it is at, and COMPOSE and IDLE_HOLD leave none. -/
theorem step_datapathCoherent : DatapathCoherent u := by
  cases hq : s.st with
  | idle =>
    cases hb : s.pins.start with
    | true => exact (atIteration_zero ⟨hq, hr, hb, rfl⟩ h).datapathCoherent (by decide)
    | false =>
      rw [step_idleHold hr hq hb] at h
      cases h
      exact .of_idle (by simpa using hq)
  | rotate =>
    obtain ⟨a, iteration⟩ := (datapathCoherent_rotate_iff hq).1 hd
    by_cases last : s.cnt.toNat = 15
    · rw [last] at iteration
      exact (datapathCoherent_compose_iff (iteration.last hr h)).2 ⟨a, iteration.inFlight_succ hr h⟩
    · have := s.cnt.isLt
      exact (iteration.next (by omega) hr h).datapathCoherent (by omega)
  | compose =>
    obtain ⟨a, inFlight⟩ := (datapathCoherent_compose_iff hq).1 hd
    exact .of_idle (inFlight.compose hq hr h).1
  | illegal => exact absurd hq hd.not_illegal

/-- COMPOSE publishes the function of the angle in flight, and raises `done` in IDLE; the other micro-operations clear
`done` and keep the result. -/
theorem step_resultCoherent (hs : ResultCoherent s) : ResultCoherent u := by
  by_cases hop : s.op = .compose
  · obtain ⟨-, composing⟩ := s.op_eq_compose_iff.1 hop
    obtain ⟨a, inFlight⟩ := (datapathCoherent_compose_iff composing).1 hd
    obtain ⟨idle, -, -, result⟩ := inFlight.compose composing hr h
    rw [← step_params h] at result
    exact ⟨.inr ⟨a, result⟩, fun _ => ⟨idle, a, result⟩⟩
  · obtain ⟨done, result⟩ := step_done_result h (by simp [s.op_eq_reset_iff, hr]) hop
    exact ⟨by rw [result, step_params h]; exact hs.1, by simp [done]⟩

end Step

theorem Coherent.next (hs : Coherent s) (h : step s = .next u) : Coherent u := by
  cases hr : s.pins.rst with
  | true =>
    rw [step_reset hr] at h
    cases h
    exact s.clearRegisters_atReset.afterEdge.coherent
  | false =>
    exact ⟨step_reachableControl hs.control h, step_datapathCoherent hs.datapath hr h,
      step_resultCoherent hs.datapath hr h hs.result⟩

end Coherence

end Sys2Proof.Machine

namespace Sys2Proof.Proofs
open Sys2Proof.Machine

/-- Settles O43: a RESET edge leaves the reset values; any other edge keeps the position, the datapath and the result
coherent, one lemma for each. -/
theorem coherenceIsKeptByEveryEdge : Obligations.CoherenceIsKeptByEveryEdge := fun _ _ => Coherent.next

/-- Settles O44: the reset values are coherent, and a RESET edge leaves them from every state. -/
theorem coherenceHoldsAfterReset : Obligations.CoherenceHoldsAfterReset :=
  ⟨State.reset_atReset.coherent, fun s hr => ⟨_, step_reset hr, s.clearRegisters_atReset.afterEdge.coherent⟩⟩

end Sys2Proof.Proofs
end

section
/-! Control words as bytes (30_encoding.md R70, R71): the encoder's words, the words of the opcode table's numbering,
and a word placed for the coming edge. -/

namespace Sys2Proof.Machine

theorem decode_encode (i : Instr) : decode (encode i) = i := by
  cases i with
  | rotate n => revert n; decide
  | reset | idleHold | load | compose | illegalRecover => rfl

/-- Exactly the one-byte strings are control words. -/
theorem decodeBytes_eq_ok_iff (bytes : List (BitVec 8)) : (∃ i, decodeBytes bytes = .ok i) ↔ bytes.length = 1 := by
  match bytes with
  | [] => simp [decodeBytes]
  | [c] => simp [decodeBytes]
  | _ :: _ :: _ => simp [decodeBytes]

/-- An eight-bit number is one byte, which is a control word. -/
theorem decodeTableWord_eight (w : Nat) : decodeTableWord 8 w = some (decode (BitVec.ofNat 8 w)) := by
  have byte : tableBytes 8 w = [BitVec.ofNat 8 w] := by simp [tableBytes]
  rw [decodeTableWord, byte, decodeBytes]

/-- The coming edge's control word is the one placed: its fields stand where `ctl` takes them from. -/
theorem State.withFetchWord_ctl (s : State) (nbits w : Nat) : (s.withFetchWord nbits w).ctl = BitVec.ofNat 8 w :=
  makeCtl_fields (BitVec.ofNat 8 w)

end Sys2Proof.Machine

namespace Sys2Proof.Proofs
open Sys2Proof.Machine

/-- Settles O11: the placed word is the edge's control word, and the step is `exec` of what it decodes to. -/
theorem placedWordRunsAtTheNextEdge : Obligations.PlacedWordRunsAtTheNextEdge := by
  intro s w hw
  have ctl := s.withFetchWord_ctl 8 w
  refine ⟨?number, _, decodeTableWord_eight w, congrArg decode ctl, ?runs⟩
  case number => rw [ctl, BitVec.toNat_ofNat, Nat.mod_eq_of_lt hw]
  case runs =>
    rw [← ctl]
    exact step_exec_op _

/-- Settles O10: constructor by constructor, and by the length of the byte string. -/
theorem decodeUndoesEncode : Obligations.DecodeUndoesEncode := by
  refine ⟨fun i _ => ⟨decode_encode i, ?table⟩, decodeBytes_eq_ok_iff⟩
  case table => rw [decodeTableWord_eight, BitVec.ofNat_toNat, BitVec.setWidth_eq, decode_encode]

/-- Settles O9: the eleven words are evaluated. -/
theorem vectorControlWordsDecode : Obligations.VectorControlWordsDecode := by
  unfold Obligations.VectorControlWordsDecode; decide

end Sys2Proof.Proofs
end
